-- ==== Sys2Proof/Word.lean ====
section
/-!
DEFINITION. The two widths of the M68HC11 (00_scope.md R6, R8): a byte is the addressable unit and the width
of an accumulator, a word is the width of an address, an index register, the stack pointer and the program counter.
Bit 0 is the least significant bit; addition and subtraction wrap (00_scope.md R13).
-/

namespace Sys2Proof

/-- An 8-bit value (00_scope.md R6: accumulator width, addressable unit, opcode width). -/
abbrev Byte := BitVec 8

/-- A 16-bit value (00_scope.md R6: index register, stack pointer, program counter and address width). -/
abbrev Word := BitVec 16

end Sys2Proof
end

