-- ==== Sys2Proof/Machine/Bits.lean ====
section
/-!
DEFINITION. Bit fields, concatenation and extension (00_scope.md R8, R9, R13).
-/

namespace Sys2Proof.Machine

/-- `hi:lo` (00_scope.md R9): the word with `hi` as bits 15 to 8 and `lo` as bits 7 to 0. -/
def join (hi lo : Byte) : Word := hi ++ lo

/-- Bits 15 to 8 of a word (00_scope.md R9: `IxH`, `PCH`). -/
def hiByte (w : Word) : Byte := w.extractLsb' 8 8

/-- Bits 7 to 0 of a word (00_scope.md R9: `IxL`, `PCL`). -/
def loByte (w : Word) : Byte := w.extractLsb' 0 8

/-- `zext_16` (00_scope.md R13). -/
def zext16 (v : Byte) : Word := v.setWidth 16

/-- `sext_16` (00_scope.md R13). -/
def sext16 (v : Byte) : Word := v.signExtend 16

end Sys2Proof.Machine
end

