-- ==== Sys2Proof/Syntax.lean ====
section
/-!
DEFINITION. The instructions: one constructor per mnemonic of spec/opcode_table.json, with its addressing mode as the
operand (30_encoding.md R91, R107). Each of the 307 rows of the table is one constructor with one operand form. The
aliases ASL, ASLA, ASLB, ASLD, BHS and BLO (30_encoding.md R116) are other spellings of `lsl`, `lsla`, `lslb`, `lsld`,
`bcc` and `bcs` and have no constructor.
-/

namespace Sys2Proof

/-- A memory operand `m` (00_scope.md R12): the addressing mode and its operand bytes. -/
inductive Mem where
  /-- Direct: the byte `dd` (30_encoding.md R100). -/
  | dir (dd : Byte)
  /-- Extended: the address `hh:ll` (30_encoding.md R101). -/
  | ext (hhll : Word)
  /-- Indexed by X with the unsigned offset `ff` (30_encoding.md R102). -/
  | indx (ff : Byte)
  /-- Indexed by Y with the unsigned offset `ff` (30_encoding.md R103). -/
  | indy (ff : Byte)
deriving DecidableEq, Repr

/-- The operand of an instruction that takes `#i8` or `m` (30_encoding.md R97, R107). -/
inductive Operand8 where
  | imm (ii : Byte)
  | mem (m : Mem)
deriving DecidableEq, Repr

/-- The operand of an instruction that takes `#i16` or `m` (30_encoding.md R97, R107). -/
inductive Operand16 where
  | imm (jjkk : Word)
  | mem (m : Mem)
deriving DecidableEq, Repr

/-- The instruction set (00_scope.md R4). `mm` is a mask (30_encoding.md R99), `rr` a displacement (R98). -/
inductive Instr where
  -- Arithmetic instructions (40_arithmetic.md)
  /-- ABA, 40_arithmetic.md R136: add accumulator B to accumulator A. -/
  | aba
  /-- ADCA, 40_arithmetic.md R137: add with carry to accumulator A. -/
  | adca (op : Operand8)
  /-- ADCB, 40_arithmetic.md R138: add with carry to accumulator B. -/
  | adcb (op : Operand8)
  /-- ADDA, 40_arithmetic.md R139: add to accumulator A. -/
  | adda (op : Operand8)
  /-- ADDB, 40_arithmetic.md R140: add to accumulator B. -/
  | addb (op : Operand8)
  /-- ADDD, 40_arithmetic.md R141: add 16 bits to accumulator D. -/
  | addd (op : Operand16)
  /-- CBA, 40_arithmetic.md R142: compare accumulator A with accumulator B. -/
  | cba
  /-- CMPA, 40_arithmetic.md R143: compare accumulator A with an operand. -/
  | cmpa (op : Operand8)
  /-- CMPB, 40_arithmetic.md R144: compare accumulator B with an operand. -/
  | cmpb (op : Operand8)
  /-- CPD, 40_arithmetic.md R145: compare accumulator D with a 16-bit operand. -/
  | cpd (op : Operand16)
  /-- DAA, 40_arithmetic.md R146: decimal adjust accumulator A after a BCD addition. -/
  | daa
  /-- DEC, 40_arithmetic.md R147: decrement a memory byte. -/
  | dec (m : Mem)
  /-- DECA, 40_arithmetic.md R148: decrement accumulator A. -/
  | deca
  /-- DECB, 40_arithmetic.md R149: decrement accumulator B. -/
  | decb
  /-- FDIV, 40_arithmetic.md R150: unsigned fractional divide, D by IX, 16-bit fraction. -/
  | fdiv
  /-- IDIV, 40_arithmetic.md R151: unsigned integer divide, D by IX. -/
  | idiv
  /-- INC, 40_arithmetic.md R152: increment a memory byte. -/
  | inc (m : Mem)
  /-- INCA, 40_arithmetic.md R153: increment accumulator A. -/
  | inca
  /-- INCB, 40_arithmetic.md R154: increment accumulator B. -/
  | incb
  /-- MUL, 40_arithmetic.md R155: unsigned multiply, A by B into D. -/
  | mul
  /-- NEG, 40_arithmetic.md R156: negate (two's complement) a memory byte. -/
  | neg (m : Mem)
  /-- NEGA, 40_arithmetic.md R157: negate accumulator A. -/
  | nega
  /-- NEGB, 40_arithmetic.md R158: negate accumulator B. -/
  | negb
  /-- SBA, 40_arithmetic.md R159: subtract accumulator B from accumulator A. -/
  | sba
  /-- SBCA, 40_arithmetic.md R160: subtract with carry (borrow) from accumulator A. -/
  | sbca (op : Operand8)
  /-- SBCB, 40_arithmetic.md R161: subtract with carry (borrow) from accumulator B. -/
  | sbcb (op : Operand8)
  /-- SUBA, 40_arithmetic.md R162: subtract from accumulator A. -/
  | suba (op : Operand8)
  /-- SUBB, 40_arithmetic.md R163: subtract from accumulator B. -/
  | subb (op : Operand8)
  /-- SUBD, 40_arithmetic.md R164: subtract 16 bits from accumulator D. -/
  | subd (op : Operand16)
  /-- TST, 40_arithmetic.md R165: test a memory byte for zero or minus. -/
  | tst (m : Mem)
  /-- TSTA, 40_arithmetic.md R166: test accumulator A for zero or minus. -/
  | tsta
  /-- TSTB, 40_arithmetic.md R167: test accumulator B for zero or minus. -/
  | tstb
  -- Bitwise instructions (41_bitwise.md)
  /-- ANDA, 41_bitwise.md R181: bitwise and into accumulator A. -/
  | anda (op : Operand8)
  /-- ANDB, 41_bitwise.md R182: bitwise and into accumulator B. -/
  | andb (op : Operand8)
  /-- ASR, 41_bitwise.md R183: arithmetic shift right of a memory byte. -/
  | asr (m : Mem)
  /-- ASRA, 41_bitwise.md R184: arithmetic shift right of accumulator A. -/
  | asra
  /-- ASRB, 41_bitwise.md R185: arithmetic shift right of accumulator B. -/
  | asrb
  /-- BCLR, 41_bitwise.md R186: clear the bits of a memory byte selected by a mask. -/
  | bclr (m : Mem) (mm : Byte)
  /-- BITA, 41_bitwise.md R187: bit test: AND accumulator A with an operand, flags only. -/
  | bita (op : Operand8)
  /-- BITB, 41_bitwise.md R188: bit test: AND accumulator B with an operand, flags only. -/
  | bitb (op : Operand8)
  /-- BSET, 41_bitwise.md R189: set the bits of a memory byte selected by a mask. -/
  | bset (m : Mem) (mm : Byte)
  /-- COM, 41_bitwise.md R190: one's complement of a memory byte. -/
  | com (m : Mem)
  /-- COMA, 41_bitwise.md R191: one's complement of accumulator A. -/
  | coma
  /-- COMB, 41_bitwise.md R192: one's complement of accumulator B. -/
  | comb
  /-- EORA, 41_bitwise.md R193: bitwise exclusive or into accumulator A. -/
  | eora (op : Operand8)
  /-- EORB, 41_bitwise.md R194: bitwise exclusive or into accumulator B. -/
  | eorb (op : Operand8)
  /-- LSL, 41_bitwise.md R195: logical shift left of a memory byte (also written ASL). -/
  | lsl (m : Mem)
  /-- LSLA, 41_bitwise.md R196: logical shift left of accumulator A (also written ASLA). -/
  | lsla
  /-- LSLB, 41_bitwise.md R197: logical shift left of accumulator B (also written ASLB). -/
  | lslb
  /-- LSLD, 41_bitwise.md R198: logical shift left of accumulator D (also written ASLD). -/
  | lsld
  /-- LSR, 41_bitwise.md R199: logical shift right of a memory byte. -/
  | lsr (m : Mem)
  /-- LSRA, 41_bitwise.md R200: logical shift right of accumulator A. -/
  | lsra
  /-- LSRB, 41_bitwise.md R201: logical shift right of accumulator B. -/
  | lsrb
  /-- LSRD, 41_bitwise.md R202: logical shift right of accumulator D. -/
  | lsrd
  /-- ORAA, 41_bitwise.md R203: bitwise inclusive or into accumulator A. -/
  | oraa (op : Operand8)
  /-- ORAB, 41_bitwise.md R204: bitwise inclusive or into accumulator B. -/
  | orab (op : Operand8)
  /-- ROL, 41_bitwise.md R205: rotate a memory byte left through carry. -/
  | rol (m : Mem)
  /-- ROLA, 41_bitwise.md R206: rotate accumulator A left through carry. -/
  | rola
  /-- ROLB, 41_bitwise.md R207: rotate accumulator B left through carry. -/
  | rolb
  /-- ROR, 41_bitwise.md R208: rotate a memory byte right through carry. -/
  | ror (m : Mem)
  /-- RORA, 41_bitwise.md R209: rotate accumulator A right through carry. -/
  | rora
  /-- RORB, 41_bitwise.md R210: rotate accumulator B right through carry. -/
  | rorb
  -- Index register and stack pointer instructions (42_index_stack.md)
  /-- ABX, 42_index_stack.md R220: add accumulator B, zero extended, to IX. -/
  | abx
  /-- ABY, 42_index_stack.md R221: add accumulator B, zero extended, to IY. -/
  | aby
  /-- CPX, 42_index_stack.md R222: compare IX with a 16-bit operand. -/
  | cpx (op : Operand16)
  /-- CPY, 42_index_stack.md R223: compare IY with a 16-bit operand. -/
  | cpy (op : Operand16)
  /-- DES, 42_index_stack.md R224: decrement the stack pointer. -/
  | des
  /-- DEX, 42_index_stack.md R225: decrement IX. -/
  | dex
  /-- DEY, 42_index_stack.md R226: decrement IY. -/
  | dey
  /-- INS, 42_index_stack.md R227: increment the stack pointer. -/
  | ins
  /-- INX, 42_index_stack.md R228: increment IX. -/
  | inx
  /-- INY, 42_index_stack.md R229: increment IY. -/
  | iny
  /-- LDS, 42_index_stack.md R230: load the stack pointer. -/
  | lds (op : Operand16)
  /-- LDX, 42_index_stack.md R231: load IX. -/
  | ldx (op : Operand16)
  /-- LDY, 42_index_stack.md R232: load IY. -/
  | ldy (op : Operand16)
  /-- PSHX, 42_index_stack.md R233: push IX onto the stack. -/
  | pshx
  /-- PSHY, 42_index_stack.md R234: push IY onto the stack. -/
  | pshy
  /-- PULX, 42_index_stack.md R235: pull IX from the stack. -/
  | pulx
  /-- PULY, 42_index_stack.md R236: pull IY from the stack. -/
  | puly
  /-- STS, 42_index_stack.md R237: store the stack pointer. -/
  | sts (m : Mem)
  /-- STX, 42_index_stack.md R238: store IX. -/
  | stx (m : Mem)
  /-- STY, 42_index_stack.md R239: store IY. -/
  | sty (m : Mem)
  /-- TSX, 42_index_stack.md R240: transfer the stack pointer plus one to IX. -/
  | tsx
  /-- TSY, 42_index_stack.md R241: transfer the stack pointer plus one to IY. -/
  | tsy
  /-- TXS, 42_index_stack.md R242: transfer IX minus one to the stack pointer. -/
  | txs
  /-- TYS, 42_index_stack.md R243: transfer IY minus one to the stack pointer. -/
  | tys
  /-- XGDX, 42_index_stack.md R244: exchange accumulator D with IX. -/
  | xgdx
  /-- XGDY, 42_index_stack.md R245: exchange accumulator D with IY. -/
  | xgdy
  -- Data transfer instructions (43_data_transfer.md)
  /-- CLR, 43_data_transfer.md R260: clear a memory byte. -/
  | clr (m : Mem)
  /-- CLRA, 43_data_transfer.md R261: clear accumulator A. -/
  | clra
  /-- CLRB, 43_data_transfer.md R262: clear accumulator B. -/
  | clrb
  /-- LDAA, 43_data_transfer.md R263: load accumulator A. -/
  | ldaa (op : Operand8)
  /-- LDAB, 43_data_transfer.md R264: load accumulator B. -/
  | ldab (op : Operand8)
  /-- LDD, 43_data_transfer.md R265: load accumulator D. -/
  | ldd (op : Operand16)
  /-- PSHA, 43_data_transfer.md R266: push accumulator A onto the stack. -/
  | psha
  /-- PSHB, 43_data_transfer.md R267: push accumulator B onto the stack. -/
  | pshb
  /-- PULA, 43_data_transfer.md R268: pull accumulator A from the stack. -/
  | pula
  /-- PULB, 43_data_transfer.md R269: pull accumulator B from the stack. -/
  | pulb
  /-- STAA, 43_data_transfer.md R270: store accumulator A. -/
  | staa (m : Mem)
  /-- STAB, 43_data_transfer.md R271: store accumulator B. -/
  | stab (m : Mem)
  /-- STD, 43_data_transfer.md R272: store accumulator D. -/
  | std (m : Mem)
  /-- TAB, 43_data_transfer.md R273: transfer accumulator A to accumulator B. -/
  | tab
  /-- TBA, 43_data_transfer.md R274: transfer accumulator B to accumulator A. -/
  | tba
  -- Jump, branch, subroutine and interrupt-control instructions (44_jump_branch.md)
  /-- BRA, 44_jump_branch.md R282: branch always. -/
  | bra (rr : Byte)
  /-- BRN, 44_jump_branch.md R283: branch never. -/
  | brn (rr : Byte)
  /-- BHI, 44_jump_branch.md R284: branch if higher (unsigned). -/
  | bhi (rr : Byte)
  /-- BLS, 44_jump_branch.md R285: branch if lower or same (unsigned). -/
  | bls (rr : Byte)
  /-- BCC, 44_jump_branch.md R286: branch if carry clear; also written BHS, branch if higher or same (unsigned). -/
  | bcc (rr : Byte)
  /-- BCS, 44_jump_branch.md R287: branch if carry set; also written BLO, branch if lower (unsigned). -/
  | bcs (rr : Byte)
  /-- BNE, 44_jump_branch.md R288: branch if not equal (not zero). -/
  | bne (rr : Byte)
  /-- BEQ, 44_jump_branch.md R289: branch if equal (zero). -/
  | beq (rr : Byte)
  /-- BVC, 44_jump_branch.md R290: branch if overflow clear. -/
  | bvc (rr : Byte)
  /-- BVS, 44_jump_branch.md R291: branch if overflow set. -/
  | bvs (rr : Byte)
  /-- BPL, 44_jump_branch.md R292: branch if plus. -/
  | bpl (rr : Byte)
  /-- BMI, 44_jump_branch.md R293: branch if minus. -/
  | bmi (rr : Byte)
  /-- BGE, 44_jump_branch.md R294: branch if greater than or equal (signed). -/
  | bge (rr : Byte)
  /-- BLT, 44_jump_branch.md R295: branch if less than (signed). -/
  | blt (rr : Byte)
  /-- BGT, 44_jump_branch.md R296: branch if greater than (signed). -/
  | bgt (rr : Byte)
  /-- BLE, 44_jump_branch.md R297: branch if less than or equal (signed). -/
  | ble (rr : Byte)
  /-- BRCLR, 44_jump_branch.md R298: branch if all the bits selected by a mask are clear. -/
  | brclr (m : Mem) (mm rr : Byte)
  /-- BRSET, 44_jump_branch.md R299: branch if all the bits selected by a mask are set. -/
  | brset (m : Mem) (mm rr : Byte)
  /-- BSR, 44_jump_branch.md R300: branch to subroutine. -/
  | bsr (rr : Byte)
  /-- JMP, 44_jump_branch.md R301: jump. -/
  | jmp (m : Mem)
  /-- JSR, 44_jump_branch.md R302: jump to subroutine. -/
  | jsr (m : Mem)
  /-- NOP, 44_jump_branch.md R303: no operation. -/
  | nop
  /-- RTI, 44_jump_branch.md R304: return from interrupt. -/
  | rti
  /-- RTS, 44_jump_branch.md R305: return from subroutine. -/
  | rts
  /-- STOP, 44_jump_branch.md R306: stop the clocks (low-power stop) unless disabled by S. -/
  | stop
  /-- SWI, 44_jump_branch.md R307: software interrupt. -/
  | swi
  /-- WAI, 44_jump_branch.md R308: wait for interrupt. -/
  | wai
  -- Condition code register instructions (45_ccr.md)
  /-- CLC, 45_ccr.md R320: clear the carry flag. -/
  | clc
  /-- CLI, 45_ccr.md R321: clear the interrupt mask I (enable maskable interrupts). -/
  | cli
  /-- CLV, 45_ccr.md R322: clear the overflow flag. -/
  | clv
  /-- SEC, 45_ccr.md R323: set the carry flag. -/
  | sec
  /-- SEI, 45_ccr.md R324: set the interrupt mask I (disable maskable interrupts). -/
  | sei
  /-- SEV, 45_ccr.md R325: set the overflow flag. -/
  | sev
  /-- TAP, 45_ccr.md R326: transfer accumulator A to the condition code register. -/
  | tap
  /-- TPA, 45_ccr.md R327: transfer the condition code register to accumulator A. -/
  | tpa
deriving DecidableEq, Repr

end Sys2Proof
end

