-- ==== Sys2Proof/WellFormed.lean ====
section
/-!
DEFINITION. Which operand forms the spec gives an instruction (30_encoding.md R107, 00_scope.md R12). The operand
types already separate the instructions with an immediate form from those without; what is left to check is note E
(no direct form) and note D (no extended form).
-/

namespace Sys2Proof

/-- Note E of 00_scope.md R12: EXT, INDX and INDY, no direct form. -/
def Mem.noteE : Mem → Bool
  | .dir _ => false
  | .ext _ => true
  | .indx _ => true
  | .indy _ => true

/-- Note D of 00_scope.md R12: DIR, INDX and INDY, no extended form. -/
def Mem.noteD : Mem → Bool
  | .dir _ => true
  | .ext _ => false
  | .indx _ => true
  | .indy _ => true

/-- The instruction is one the spec gives an encoding (30_encoding.md R107). -/
def Instr.wf : Instr → Bool
  | .aba => true
  | .adca _ => true
  | .adcb _ => true
  | .adda _ => true
  | .addb _ => true
  | .addd _ => true
  | .cba => true
  | .cmpa _ => true
  | .cmpb _ => true
  | .cpd _ => true
  | .daa => true
  | .dec m => m.noteE
  | .deca => true
  | .decb => true
  | .fdiv => true
  | .idiv => true
  | .inc m => m.noteE
  | .inca => true
  | .incb => true
  | .mul => true
  | .neg m => m.noteE
  | .nega => true
  | .negb => true
  | .sba => true
  | .sbca _ => true
  | .sbcb _ => true
  | .suba _ => true
  | .subb _ => true
  | .subd _ => true
  | .tst m => m.noteE
  | .tsta => true
  | .tstb => true
  | .anda _ => true
  | .andb _ => true
  | .asr m => m.noteE
  | .asra => true
  | .asrb => true
  | .bclr m _ => m.noteD
  | .bita _ => true
  | .bitb _ => true
  | .bset m _ => m.noteD
  | .com m => m.noteE
  | .coma => true
  | .comb => true
  | .eora _ => true
  | .eorb _ => true
  | .lsl m => m.noteE
  | .lsla => true
  | .lslb => true
  | .lsld => true
  | .lsr m => m.noteE
  | .lsra => true
  | .lsrb => true
  | .lsrd => true
  | .oraa _ => true
  | .orab _ => true
  | .rol m => m.noteE
  | .rola => true
  | .rolb => true
  | .ror m => m.noteE
  | .rora => true
  | .rorb => true
  | .abx => true
  | .aby => true
  | .cpx _ => true
  | .cpy _ => true
  | .des => true
  | .dex => true
  | .dey => true
  | .ins => true
  | .inx => true
  | .iny => true
  | .lds _ => true
  | .ldx _ => true
  | .ldy _ => true
  | .pshx => true
  | .pshy => true
  | .pulx => true
  | .puly => true
  | .sts _ => true
  | .stx _ => true
  | .sty _ => true
  | .tsx => true
  | .tsy => true
  | .txs => true
  | .tys => true
  | .xgdx => true
  | .xgdy => true
  | .clr m => m.noteE
  | .clra => true
  | .clrb => true
  | .ldaa _ => true
  | .ldab _ => true
  | .ldd _ => true
  | .psha => true
  | .pshb => true
  | .pula => true
  | .pulb => true
  | .staa _ => true
  | .stab _ => true
  | .std _ => true
  | .tab => true
  | .tba => true
  | .bra _ => true
  | .brn _ => true
  | .bhi _ => true
  | .bls _ => true
  | .bcc _ => true
  | .bcs _ => true
  | .bne _ => true
  | .beq _ => true
  | .bvc _ => true
  | .bvs _ => true
  | .bpl _ => true
  | .bmi _ => true
  | .bge _ => true
  | .blt _ => true
  | .bgt _ => true
  | .ble _ => true
  | .brclr m _ _ => m.noteD
  | .brset m _ _ => m.noteD
  | .bsr _ => true
  | .jmp m => m.noteE
  | .jsr _ => true
  | .nop => true
  | .rti => true
  | .rts => true
  | .stop => true
  | .swi => true
  | .wai => true
  | .clc => true
  | .cli => true
  | .clv => true
  | .sec => true
  | .sei => true
  | .sev => true
  | .tap => true
  | .tpa => true

end Sys2Proof
end

