-- ==== Sys2Proof/Decode.lean ====
section
/-!
DEFINITION. Decoding and encoding (30_encoding.md). The decoder takes the table `OPCODE_MAP` as an argument, which the
configuration carries (00_scope.md R7, D1), and the spec's default for it, R109 to R111, stands here (PRESUMED, log 1).
`encode` is written from the `Encoding:` lines of the instruction rules R136 to R327, so that the default table can be
held against it.
-/

namespace Sys2Proof

open Sys2Proof.Machine (join hiByte loByte)

/-! ## `OPCODE_MAP` -/

/-- The mnemonics (00_scope.md R4), named as the constructors of `Instr`. -/
inductive Mnemonic where
  | aba | adca | adcb | adda | addb | addd | cba | cmpa | cmpb | cpd | daa | dec | deca | decb | fdiv | idiv | inc
  | inca | incb | mul | neg | nega | negb | sba | sbca | sbcb | suba | subb | subd | tst | tsta | tstb | anda
  | andb | asr | asra | asrb | bclr | bita | bitb | bset | com | coma | comb | eora | eorb | lsl | lsla | lslb
  | lsld | lsr | lsra | lsrb | lsrd | oraa | orab | rol | rola | rolb | ror | rora | rorb | abx | aby | cpx | cpy
  | des | dex | dey | ins | inx | iny | lds | ldx | ldy | pshx | pshy | pulx | puly | sts | stx | sty | tsx | tsy
  | txs | tys | xgdx | xgdy | clr | clra | clrb | ldaa | ldab | ldd | psha | pshb | pula | pulb | staa | stab
  | std | tab | tba | bra | brn | bhi | bls | bcc | bcs | bne | beq | bvc | bvs | bpl | bmi | bge | blt | bgt
  | ble | brclr | brset | bsr | jmp | jsr | nop | rti | rts | stop | swi | wai | clc | cli | clv | sec | sei | sev
  | tap | tpa
deriving DecidableEq, Repr

/-- The addressing modes of a row (30_encoding.md R100 to R106, R111). -/
inductive AddrMode where
  | inh
  | imm8
  | imm16
  | dir
  | ext
  | indx
  | indy
  | rel
deriving DecidableEq, Repr

/-- One row of a page of `OPCODE_MAP`: what an opcode byte selects there (30_encoding.md R91). -/
structure OpcodeCell where
  opcode : Byte
  mnemonic : Mnemonic
  mode : AddrMode
deriving DecidableEq, Repr

/-- A page other than page 0, with the prebyte that directs the processor to it (30_encoding.md R92). -/
structure OpcodePage where
  prebyte : Byte
  cells : List OpcodeCell
deriving DecidableEq, Repr

/-- `OPCODE_MAP` of 00_scope.md R7: the table from prebyte, if any, and opcode byte to mnemonic and addressing mode. -/
structure OpcodeMap where
  page0 : List OpcodeCell
  pages : List OpcodePage
deriving DecidableEq, Repr

/-- The byte is a prebyte of this map (30_encoding.md R92, R96). -/
def OpcodeMap.isPrebyte (m : OpcodeMap) (b : Byte) : Bool := m.pages.any fun p => p.prebyte == b

/-- The cells of page 0, or of the page a prebyte selects (30_encoding.md R92, R96). -/
def OpcodeMap.cells (m : OpcodeMap) : Option Byte → List OpcodeCell
  | none => m.page0
  | some b =>
    match m.pages.find? fun p => p.prebyte == b with
    | some p => p.cells
    | none => []

/-! ## The formats of the rows -/

/-- The format of a row of the opcode map (30_encoding.md R94) with the instruction its operand bytes make. The
indexed formats name their index register, as the row does. -/
inductive Shape where
  /-- INH: `op`. -/
  | inh (i : Instr)
  /-- IMM8: `op ii`. -/
  | imm8 (mk : Operand8 → Instr)
  /-- IMM16: `op jj kk`. -/
  | imm16 (mk : Operand16 → Instr)
  /-- DIR: `op dd`. -/
  | dir (mk : Mem → Instr)
  /-- EXT: `op hh ll`. -/
  | ext (mk : Mem → Instr)
  /-- IND by X: `op ff`. -/
  | indx (mk : Mem → Instr)
  /-- IND by Y: `op ff`. -/
  | indy (mk : Mem → Instr)
  /-- REL: `op rr`. -/
  | rel (mk : Byte → Instr)
  /-- DIR-M: `op dd mm`. -/
  | dirM (mk : Mem → Byte → Instr)
  /-- IND-M by X: `op ff mm`. -/
  | indxM (mk : Mem → Byte → Instr)
  /-- IND-M by Y: `op ff mm`. -/
  | indyM (mk : Mem → Byte → Instr)
  /-- DIR-M-REL: `op dd mm rr`. -/
  | dirMRel (mk : Mem → Byte → Byte → Instr)
  /-- IND-M-REL by X: `op ff mm rr`. -/
  | indxMRel (mk : Mem → Byte → Byte → Instr)
  /-- IND-M-REL by Y: `op ff mm rr`. -/
  | indyMRel (mk : Mem → Byte → Byte → Instr)

/-- The number N of operand bytes of a format (30_encoding.md R95). -/
def operandBytes : Shape → Nat
  | .inh _ => 0
  | .imm8 _ => 1
  | .imm16 _ => 2
  | .dir _ => 1
  | .ext _ => 2
  | .indx _ => 1
  | .indy _ => 1
  | .rel _ => 1
  | .dirM _ => 2
  | .indxM _ => 2
  | .indyM _ => 2
  | .dirMRel _ => 3
  | .indxMRel _ => 3
  | .indyMRel _ => 3

/-- The operand forms of an instruction (30_encoding.md R107), with the instruction an operand makes. -/
inductive Forms where
  /-- INH. -/
  | inherent (i : Instr)
  /-- IMM8 and note A. -/
  | imm8 (mk : Operand8 → Instr)
  /-- IMM16 and note A. -/
  | imm16 (mk : Operand16 → Instr)
  /-- Note A: DIR, EXT, INDX, INDY. -/
  | noteA (mk : Mem → Instr)
  /-- Note E: EXT, INDX, INDY. -/
  | noteE (mk : Mem → Instr)
  /-- Note D with a mask: DIR, INDX, INDY. -/
  | noteDMask (mk : Mem → Byte → Instr)
  /-- Note D with a mask and a displacement: DIR, INDX, INDY. -/
  | noteDMaskRel (mk : Mem → Byte → Byte → Instr)
  /-- REL. -/
  | relative (mk : Byte → Instr)

/-- The format that an addressing mode gives an instruction, none where R107 gives it no such form (30_encoding.md
R94). -/
def Forms.shape : Forms → AddrMode → Option Shape
  | .inherent i, .inh => some (.inh i)
  | .imm8 mk, .imm8 => some (.imm8 mk)
  | .imm8 mk, .dir => some (.dir fun m => mk (.mem m))
  | .imm8 mk, .ext => some (.ext fun m => mk (.mem m))
  | .imm8 mk, .indx => some (.indx fun m => mk (.mem m))
  | .imm8 mk, .indy => some (.indy fun m => mk (.mem m))
  | .imm16 mk, .imm16 => some (.imm16 mk)
  | .imm16 mk, .dir => some (.dir fun m => mk (.mem m))
  | .imm16 mk, .ext => some (.ext fun m => mk (.mem m))
  | .imm16 mk, .indx => some (.indx fun m => mk (.mem m))
  | .imm16 mk, .indy => some (.indy fun m => mk (.mem m))
  | .noteA mk, .dir => some (.dir mk)
  | .noteA mk, .ext => some (.ext mk)
  | .noteA mk, .indx => some (.indx mk)
  | .noteA mk, .indy => some (.indy mk)
  | .noteE mk, .ext => some (.ext mk)
  | .noteE mk, .indx => some (.indx mk)
  | .noteE mk, .indy => some (.indy mk)
  | .noteDMask mk, .dir => some (.dirM mk)
  | .noteDMask mk, .indx => some (.indxM mk)
  | .noteDMask mk, .indy => some (.indyM mk)
  | .noteDMaskRel mk, .dir => some (.dirMRel mk)
  | .noteDMaskRel mk, .indx => some (.indxMRel mk)
  | .noteDMaskRel mk, .indy => some (.indyMRel mk)
  | .relative mk, .rel => some (.rel mk)
  | _, _ => none

/-- The operand forms of every instruction (30_encoding.md R107). -/
def forms : Mnemonic → Forms
  | .aba => .inherent .aba
  | .adca => .imm8 .adca
  | .adcb => .imm8 .adcb
  | .adda => .imm8 .adda
  | .addb => .imm8 .addb
  | .addd => .imm16 .addd
  | .cba => .inherent .cba
  | .cmpa => .imm8 .cmpa
  | .cmpb => .imm8 .cmpb
  | .cpd => .imm16 .cpd
  | .daa => .inherent .daa
  | .dec => .noteE .dec
  | .deca => .inherent .deca
  | .decb => .inherent .decb
  | .fdiv => .inherent .fdiv
  | .idiv => .inherent .idiv
  | .inc => .noteE .inc
  | .inca => .inherent .inca
  | .incb => .inherent .incb
  | .mul => .inherent .mul
  | .neg => .noteE .neg
  | .nega => .inherent .nega
  | .negb => .inherent .negb
  | .sba => .inherent .sba
  | .sbca => .imm8 .sbca
  | .sbcb => .imm8 .sbcb
  | .suba => .imm8 .suba
  | .subb => .imm8 .subb
  | .subd => .imm16 .subd
  | .tst => .noteE .tst
  | .tsta => .inherent .tsta
  | .tstb => .inherent .tstb
  | .anda => .imm8 .anda
  | .andb => .imm8 .andb
  | .asr => .noteE .asr
  | .asra => .inherent .asra
  | .asrb => .inherent .asrb
  | .bclr => .noteDMask .bclr
  | .bita => .imm8 .bita
  | .bitb => .imm8 .bitb
  | .bset => .noteDMask .bset
  | .com => .noteE .com
  | .coma => .inherent .coma
  | .comb => .inherent .comb
  | .eora => .imm8 .eora
  | .eorb => .imm8 .eorb
  | .lsl => .noteE .lsl
  | .lsla => .inherent .lsla
  | .lslb => .inherent .lslb
  | .lsld => .inherent .lsld
  | .lsr => .noteE .lsr
  | .lsra => .inherent .lsra
  | .lsrb => .inherent .lsrb
  | .lsrd => .inherent .lsrd
  | .oraa => .imm8 .oraa
  | .orab => .imm8 .orab
  | .rol => .noteE .rol
  | .rola => .inherent .rola
  | .rolb => .inherent .rolb
  | .ror => .noteE .ror
  | .rora => .inherent .rora
  | .rorb => .inherent .rorb
  | .abx => .inherent .abx
  | .aby => .inherent .aby
  | .cpx => .imm16 .cpx
  | .cpy => .imm16 .cpy
  | .des => .inherent .des
  | .dex => .inherent .dex
  | .dey => .inherent .dey
  | .ins => .inherent .ins
  | .inx => .inherent .inx
  | .iny => .inherent .iny
  | .lds => .imm16 .lds
  | .ldx => .imm16 .ldx
  | .ldy => .imm16 .ldy
  | .pshx => .inherent .pshx
  | .pshy => .inherent .pshy
  | .pulx => .inherent .pulx
  | .puly => .inherent .puly
  | .sts => .noteA .sts
  | .stx => .noteA .stx
  | .sty => .noteA .sty
  | .tsx => .inherent .tsx
  | .tsy => .inherent .tsy
  | .txs => .inherent .txs
  | .tys => .inherent .tys
  | .xgdx => .inherent .xgdx
  | .xgdy => .inherent .xgdy
  | .clr => .noteE .clr
  | .clra => .inherent .clra
  | .clrb => .inherent .clrb
  | .ldaa => .imm8 .ldaa
  | .ldab => .imm8 .ldab
  | .ldd => .imm16 .ldd
  | .psha => .inherent .psha
  | .pshb => .inherent .pshb
  | .pula => .inherent .pula
  | .pulb => .inherent .pulb
  | .staa => .noteA .staa
  | .stab => .noteA .stab
  | .std => .noteA .std
  | .tab => .inherent .tab
  | .tba => .inherent .tba
  | .bra => .relative .bra
  | .brn => .relative .brn
  | .bhi => .relative .bhi
  | .bls => .relative .bls
  | .bcc => .relative .bcc
  | .bcs => .relative .bcs
  | .bne => .relative .bne
  | .beq => .relative .beq
  | .bvc => .relative .bvc
  | .bvs => .relative .bvs
  | .bpl => .relative .bpl
  | .bmi => .relative .bmi
  | .bge => .relative .bge
  | .blt => .relative .blt
  | .bgt => .relative .bgt
  | .ble => .relative .ble
  | .brclr => .noteDMaskRel .brclr
  | .brset => .noteDMaskRel .brset
  | .bsr => .relative .bsr
  | .jmp => .noteE .jmp
  | .jsr => .noteA .jsr
  | .nop => .inherent .nop
  | .rti => .inherent .rti
  | .rts => .inherent .rts
  | .stop => .inherent .stop
  | .swi => .inherent .swi
  | .wai => .inherent .wai
  | .clc => .inherent .clc
  | .cli => .inherent .cli
  | .clv => .inherent .clv
  | .sec => .inherent .sec
  | .sei => .inherent .sei
  | .sev => .inherent .sev
  | .tap => .inherent .tap
  | .tpa => .inherent .tpa

/-- The format of a row of a page (30_encoding.md R94). -/
def OpcodeCell.shape (c : OpcodeCell) : Option Shape := (forms c.mnemonic).shape c.mode

/-- The opcode bytes of a page rise strictly, so that each has one row. -/
def risingOpcodes : List OpcodeCell → Bool
  | [] => true
  | [_] => true
  | c :: d :: rest => decide (c.opcode.toNat < d.opcode.toNat) && risingOpcodes (d :: rest)

/-- A table of the kind R7 and R92 speak of: three pages with prebytes of their own beside page 0, which has no row for a
prebyte; one row for an opcode byte of a page; and each row an operand form that R107 gives its instruction. -/
def OpcodeMap.wf (m : OpcodeMap) : Bool :=
  m.pages.length == 3 && decide (m.pages.map OpcodePage.prebyte).Nodup &&
    m.page0.all (fun c => !m.isPrebyte c.opcode) && risingOpcodes m.page0 && m.page0.all (·.shape.isSome) &&
    m.pages.all fun p => risingOpcodes p.cells && p.cells.all (·.shape.isSome)

/-! ## The default table -/

/-- 30_encoding.md R109: the rows of page 0 whose opcode begins with 0 or 1. -/
def page0Cells01 : List OpcodeCell := [
  ⟨0x01#8, .nop, .inh⟩, ⟨0x02#8, .idiv, .inh⟩, ⟨0x03#8, .fdiv, .inh⟩, ⟨0x04#8, .lsrd, .inh⟩, ⟨0x05#8, .lsld, .inh⟩,
  ⟨0x06#8, .tap, .inh⟩, ⟨0x07#8, .tpa, .inh⟩, ⟨0x08#8, .inx, .inh⟩, ⟨0x09#8, .dex, .inh⟩, ⟨0x0A#8, .clv, .inh⟩,
  ⟨0x0B#8, .sev, .inh⟩, ⟨0x0C#8, .clc, .inh⟩, ⟨0x0D#8, .sec, .inh⟩, ⟨0x0E#8, .cli, .inh⟩, ⟨0x0F#8, .sei, .inh⟩,
  ⟨0x10#8, .sba, .inh⟩, ⟨0x11#8, .cba, .inh⟩, ⟨0x12#8, .brset, .dir⟩, ⟨0x13#8, .brclr, .dir⟩, ⟨0x14#8, .bset, .dir⟩,
  ⟨0x15#8, .bclr, .dir⟩, ⟨0x16#8, .tab, .inh⟩, ⟨0x17#8, .tba, .inh⟩, ⟨0x19#8, .daa, .inh⟩, ⟨0x1B#8, .aba, .inh⟩,
  ⟨0x1C#8, .bset, .indx⟩, ⟨0x1D#8, .bclr, .indx⟩, ⟨0x1E#8, .brset, .indx⟩, ⟨0x1F#8, .brclr, .indx⟩]

/-- 30_encoding.md R109: the rows of page 0 whose opcode begins with 2 or 3. -/
def page0Cells23 : List OpcodeCell := [
  ⟨0x20#8, .bra, .rel⟩, ⟨0x21#8, .brn, .rel⟩, ⟨0x22#8, .bhi, .rel⟩, ⟨0x23#8, .bls, .rel⟩, ⟨0x24#8, .bcc, .rel⟩,
  ⟨0x25#8, .bcs, .rel⟩, ⟨0x26#8, .bne, .rel⟩, ⟨0x27#8, .beq, .rel⟩, ⟨0x28#8, .bvc, .rel⟩, ⟨0x29#8, .bvs, .rel⟩,
  ⟨0x2A#8, .bpl, .rel⟩, ⟨0x2B#8, .bmi, .rel⟩, ⟨0x2C#8, .bge, .rel⟩, ⟨0x2D#8, .blt, .rel⟩, ⟨0x2E#8, .bgt, .rel⟩,
  ⟨0x2F#8, .ble, .rel⟩, ⟨0x30#8, .tsx, .inh⟩, ⟨0x31#8, .ins, .inh⟩, ⟨0x32#8, .pula, .inh⟩, ⟨0x33#8, .pulb, .inh⟩,
  ⟨0x34#8, .des, .inh⟩, ⟨0x35#8, .txs, .inh⟩, ⟨0x36#8, .psha, .inh⟩, ⟨0x37#8, .pshb, .inh⟩, ⟨0x38#8, .pulx, .inh⟩,
  ⟨0x39#8, .rts, .inh⟩, ⟨0x3A#8, .abx, .inh⟩, ⟨0x3B#8, .rti, .inh⟩, ⟨0x3C#8, .pshx, .inh⟩, ⟨0x3D#8, .mul, .inh⟩,
  ⟨0x3E#8, .wai, .inh⟩, ⟨0x3F#8, .swi, .inh⟩]

/-- 30_encoding.md R109: the rows of page 0 whose opcode begins with 4 or 5. -/
def page0Cells45 : List OpcodeCell := [
  ⟨0x40#8, .nega, .inh⟩, ⟨0x43#8, .coma, .inh⟩, ⟨0x44#8, .lsra, .inh⟩, ⟨0x46#8, .rora, .inh⟩, ⟨0x47#8, .asra, .inh⟩,
  ⟨0x48#8, .lsla, .inh⟩, ⟨0x49#8, .rola, .inh⟩, ⟨0x4A#8, .deca, .inh⟩, ⟨0x4C#8, .inca, .inh⟩, ⟨0x4D#8, .tsta, .inh⟩,
  ⟨0x4F#8, .clra, .inh⟩, ⟨0x50#8, .negb, .inh⟩, ⟨0x53#8, .comb, .inh⟩, ⟨0x54#8, .lsrb, .inh⟩, ⟨0x56#8, .rorb, .inh⟩,
  ⟨0x57#8, .asrb, .inh⟩, ⟨0x58#8, .lslb, .inh⟩, ⟨0x59#8, .rolb, .inh⟩, ⟨0x5A#8, .decb, .inh⟩, ⟨0x5C#8, .incb, .inh⟩,
  ⟨0x5D#8, .tstb, .inh⟩, ⟨0x5F#8, .clrb, .inh⟩]

/-- 30_encoding.md R109: the rows of page 0 whose opcode begins with 6 or 7. -/
def page0Cells67 : List OpcodeCell := [
  ⟨0x60#8, .neg, .indx⟩, ⟨0x63#8, .com, .indx⟩, ⟨0x64#8, .lsr, .indx⟩, ⟨0x66#8, .ror, .indx⟩, ⟨0x67#8, .asr, .indx⟩,
  ⟨0x68#8, .lsl, .indx⟩, ⟨0x69#8, .rol, .indx⟩, ⟨0x6A#8, .dec, .indx⟩, ⟨0x6C#8, .inc, .indx⟩, ⟨0x6D#8, .tst, .indx⟩,
  ⟨0x6E#8, .jmp, .indx⟩, ⟨0x6F#8, .clr, .indx⟩, ⟨0x70#8, .neg, .ext⟩, ⟨0x73#8, .com, .ext⟩, ⟨0x74#8, .lsr, .ext⟩,
  ⟨0x76#8, .ror, .ext⟩, ⟨0x77#8, .asr, .ext⟩, ⟨0x78#8, .lsl, .ext⟩, ⟨0x79#8, .rol, .ext⟩, ⟨0x7A#8, .dec, .ext⟩,
  ⟨0x7C#8, .inc, .ext⟩, ⟨0x7D#8, .tst, .ext⟩, ⟨0x7E#8, .jmp, .ext⟩, ⟨0x7F#8, .clr, .ext⟩]

/-- 30_encoding.md R109: the rows of page 0 whose opcode begins with 8 or 9. -/
def page0Cells89 : List OpcodeCell := [
  ⟨0x80#8, .suba, .imm8⟩, ⟨0x81#8, .cmpa, .imm8⟩, ⟨0x82#8, .sbca, .imm8⟩, ⟨0x83#8, .subd, .imm16⟩,
  ⟨0x84#8, .anda, .imm8⟩, ⟨0x85#8, .bita, .imm8⟩, ⟨0x86#8, .ldaa, .imm8⟩, ⟨0x88#8, .eora, .imm8⟩,
  ⟨0x89#8, .adca, .imm8⟩, ⟨0x8A#8, .oraa, .imm8⟩, ⟨0x8B#8, .adda, .imm8⟩, ⟨0x8C#8, .cpx, .imm16⟩,
  ⟨0x8D#8, .bsr, .rel⟩, ⟨0x8E#8, .lds, .imm16⟩, ⟨0x8F#8, .xgdx, .inh⟩, ⟨0x90#8, .suba, .dir⟩, ⟨0x91#8, .cmpa, .dir⟩,
  ⟨0x92#8, .sbca, .dir⟩, ⟨0x93#8, .subd, .dir⟩, ⟨0x94#8, .anda, .dir⟩, ⟨0x95#8, .bita, .dir⟩, ⟨0x96#8, .ldaa, .dir⟩,
  ⟨0x97#8, .staa, .dir⟩, ⟨0x98#8, .eora, .dir⟩, ⟨0x99#8, .adca, .dir⟩, ⟨0x9A#8, .oraa, .dir⟩, ⟨0x9B#8, .adda, .dir⟩,
  ⟨0x9C#8, .cpx, .dir⟩, ⟨0x9D#8, .jsr, .dir⟩, ⟨0x9E#8, .lds, .dir⟩, ⟨0x9F#8, .sts, .dir⟩]

/-- 30_encoding.md R109: the rows of page 0 whose opcode begins with A or B. -/
def page0CellsAB : List OpcodeCell := [
  ⟨0xA0#8, .suba, .indx⟩, ⟨0xA1#8, .cmpa, .indx⟩, ⟨0xA2#8, .sbca, .indx⟩, ⟨0xA3#8, .subd, .indx⟩,
  ⟨0xA4#8, .anda, .indx⟩, ⟨0xA5#8, .bita, .indx⟩, ⟨0xA6#8, .ldaa, .indx⟩, ⟨0xA7#8, .staa, .indx⟩,
  ⟨0xA8#8, .eora, .indx⟩, ⟨0xA9#8, .adca, .indx⟩, ⟨0xAA#8, .oraa, .indx⟩, ⟨0xAB#8, .adda, .indx⟩,
  ⟨0xAC#8, .cpx, .indx⟩, ⟨0xAD#8, .jsr, .indx⟩, ⟨0xAE#8, .lds, .indx⟩, ⟨0xAF#8, .sts, .indx⟩, ⟨0xB0#8, .suba, .ext⟩,
  ⟨0xB1#8, .cmpa, .ext⟩, ⟨0xB2#8, .sbca, .ext⟩, ⟨0xB3#8, .subd, .ext⟩, ⟨0xB4#8, .anda, .ext⟩, ⟨0xB5#8, .bita, .ext⟩,
  ⟨0xB6#8, .ldaa, .ext⟩, ⟨0xB7#8, .staa, .ext⟩, ⟨0xB8#8, .eora, .ext⟩, ⟨0xB9#8, .adca, .ext⟩, ⟨0xBA#8, .oraa, .ext⟩,
  ⟨0xBB#8, .adda, .ext⟩, ⟨0xBC#8, .cpx, .ext⟩, ⟨0xBD#8, .jsr, .ext⟩, ⟨0xBE#8, .lds, .ext⟩, ⟨0xBF#8, .sts, .ext⟩]

/-- 30_encoding.md R109: the rows of page 0 whose opcode begins with C or D. -/
def page0CellsCD : List OpcodeCell := [
  ⟨0xC0#8, .subb, .imm8⟩, ⟨0xC1#8, .cmpb, .imm8⟩, ⟨0xC2#8, .sbcb, .imm8⟩, ⟨0xC3#8, .addd, .imm16⟩,
  ⟨0xC4#8, .andb, .imm8⟩, ⟨0xC5#8, .bitb, .imm8⟩, ⟨0xC6#8, .ldab, .imm8⟩, ⟨0xC8#8, .eorb, .imm8⟩,
  ⟨0xC9#8, .adcb, .imm8⟩, ⟨0xCA#8, .orab, .imm8⟩, ⟨0xCB#8, .addb, .imm8⟩, ⟨0xCC#8, .ldd, .imm16⟩,
  ⟨0xCE#8, .ldx, .imm16⟩, ⟨0xCF#8, .stop, .inh⟩, ⟨0xD0#8, .subb, .dir⟩, ⟨0xD1#8, .cmpb, .dir⟩, ⟨0xD2#8, .sbcb, .dir⟩,
  ⟨0xD3#8, .addd, .dir⟩, ⟨0xD4#8, .andb, .dir⟩, ⟨0xD5#8, .bitb, .dir⟩, ⟨0xD6#8, .ldab, .dir⟩, ⟨0xD7#8, .stab, .dir⟩,
  ⟨0xD8#8, .eorb, .dir⟩, ⟨0xD9#8, .adcb, .dir⟩, ⟨0xDA#8, .orab, .dir⟩, ⟨0xDB#8, .addb, .dir⟩, ⟨0xDC#8, .ldd, .dir⟩,
  ⟨0xDD#8, .std, .dir⟩, ⟨0xDE#8, .ldx, .dir⟩, ⟨0xDF#8, .stx, .dir⟩]

/-- 30_encoding.md R109: the rows of page 0 whose opcode begins with E or F. -/
def page0CellsEF : List OpcodeCell := [
  ⟨0xE0#8, .subb, .indx⟩, ⟨0xE1#8, .cmpb, .indx⟩, ⟨0xE2#8, .sbcb, .indx⟩, ⟨0xE3#8, .addd, .indx⟩,
  ⟨0xE4#8, .andb, .indx⟩, ⟨0xE5#8, .bitb, .indx⟩, ⟨0xE6#8, .ldab, .indx⟩, ⟨0xE7#8, .stab, .indx⟩,
  ⟨0xE8#8, .eorb, .indx⟩, ⟨0xE9#8, .adcb, .indx⟩, ⟨0xEA#8, .orab, .indx⟩, ⟨0xEB#8, .addb, .indx⟩,
  ⟨0xEC#8, .ldd, .indx⟩, ⟨0xED#8, .std, .indx⟩, ⟨0xEE#8, .ldx, .indx⟩, ⟨0xEF#8, .stx, .indx⟩, ⟨0xF0#8, .subb, .ext⟩,
  ⟨0xF1#8, .cmpb, .ext⟩, ⟨0xF2#8, .sbcb, .ext⟩, ⟨0xF3#8, .addd, .ext⟩, ⟨0xF4#8, .andb, .ext⟩, ⟨0xF5#8, .bitb, .ext⟩,
  ⟨0xF6#8, .ldab, .ext⟩, ⟨0xF7#8, .stab, .ext⟩, ⟨0xF8#8, .eorb, .ext⟩, ⟨0xF9#8, .adcb, .ext⟩, ⟨0xFA#8, .orab, .ext⟩,
  ⟨0xFB#8, .addb, .ext⟩, ⟨0xFC#8, .ldd, .ext⟩, ⟨0xFD#8, .std, .ext⟩, ⟨0xFE#8, .ldx, .ext⟩, ⟨0xFF#8, .stx, .ext⟩]

/-- 30_encoding.md R110: the 64 rows of the 0x18 page. -/
def page18Cells : List OpcodeCell := [
  ⟨0x08#8, .iny, .inh⟩, ⟨0x09#8, .dey, .inh⟩, ⟨0x1C#8, .bset, .indy⟩, ⟨0x1D#8, .bclr, .indy⟩,
  ⟨0x1E#8, .brset, .indy⟩, ⟨0x1F#8, .brclr, .indy⟩, ⟨0x30#8, .tsy, .inh⟩, ⟨0x35#8, .tys, .inh⟩,
  ⟨0x38#8, .puly, .inh⟩, ⟨0x3A#8, .aby, .inh⟩, ⟨0x3C#8, .pshy, .inh⟩, ⟨0x60#8, .neg, .indy⟩, ⟨0x63#8, .com, .indy⟩,
  ⟨0x64#8, .lsr, .indy⟩, ⟨0x66#8, .ror, .indy⟩, ⟨0x67#8, .asr, .indy⟩, ⟨0x68#8, .lsl, .indy⟩, ⟨0x69#8, .rol, .indy⟩,
  ⟨0x6A#8, .dec, .indy⟩, ⟨0x6C#8, .inc, .indy⟩, ⟨0x6D#8, .tst, .indy⟩, ⟨0x6E#8, .jmp, .indy⟩, ⟨0x6F#8, .clr, .indy⟩,
  ⟨0x8C#8, .cpy, .imm16⟩, ⟨0x8F#8, .xgdy, .inh⟩, ⟨0x9C#8, .cpy, .dir⟩, ⟨0xA0#8, .suba, .indy⟩,
  ⟨0xA1#8, .cmpa, .indy⟩, ⟨0xA2#8, .sbca, .indy⟩, ⟨0xA3#8, .subd, .indy⟩, ⟨0xA4#8, .anda, .indy⟩,
  ⟨0xA5#8, .bita, .indy⟩, ⟨0xA6#8, .ldaa, .indy⟩, ⟨0xA7#8, .staa, .indy⟩, ⟨0xA8#8, .eora, .indy⟩,
  ⟨0xA9#8, .adca, .indy⟩, ⟨0xAA#8, .oraa, .indy⟩, ⟨0xAB#8, .adda, .indy⟩, ⟨0xAC#8, .cpy, .indy⟩,
  ⟨0xAD#8, .jsr, .indy⟩, ⟨0xAE#8, .lds, .indy⟩, ⟨0xAF#8, .sts, .indy⟩, ⟨0xBC#8, .cpy, .ext⟩, ⟨0xCE#8, .ldy, .imm16⟩,
  ⟨0xDE#8, .ldy, .dir⟩, ⟨0xDF#8, .sty, .dir⟩, ⟨0xE0#8, .subb, .indy⟩, ⟨0xE1#8, .cmpb, .indy⟩, ⟨0xE2#8, .sbcb, .indy⟩,
  ⟨0xE3#8, .addd, .indy⟩, ⟨0xE4#8, .andb, .indy⟩, ⟨0xE5#8, .bitb, .indy⟩, ⟨0xE6#8, .ldab, .indy⟩,
  ⟨0xE7#8, .stab, .indy⟩, ⟨0xE8#8, .eorb, .indy⟩, ⟨0xE9#8, .adcb, .indy⟩, ⟨0xEA#8, .orab, .indy⟩,
  ⟨0xEB#8, .addb, .indy⟩, ⟨0xEC#8, .ldd, .indy⟩, ⟨0xED#8, .std, .indy⟩, ⟨0xEE#8, .ldy, .indy⟩, ⟨0xEF#8, .sty, .indy⟩,
  ⟨0xFE#8, .ldy, .ext⟩, ⟨0xFF#8, .sty, .ext⟩]

/-- 30_encoding.md R111: the 7 rows of the 0x1A page. -/
def page1ACells : List OpcodeCell := [
  ⟨0x83#8, .cpd, .imm16⟩, ⟨0x93#8, .cpd, .dir⟩, ⟨0xA3#8, .cpd, .indx⟩, ⟨0xAC#8, .cpy, .indx⟩, ⟨0xB3#8, .cpd, .ext⟩,
  ⟨0xEE#8, .ldy, .indx⟩, ⟨0xEF#8, .sty, .indx⟩]

/-- 30_encoding.md R111: the 4 rows of the 0xCD page. -/
def pageCDCells : List OpcodeCell := [
  ⟨0xA3#8, .cpd, .indy⟩, ⟨0xAC#8, .cpx, .indy⟩, ⟨0xEE#8, .ldx, .indy⟩, ⟨0xEF#8, .stx, .indy⟩]

/-- The spec's default for `OPCODE_MAP` (30_encoding.md R93, R109 to R111; PRESUMED, log 1). -/
def defaultOpcodeMap : OpcodeMap where
  page0 := page0Cells01 ++ page0Cells23 ++ page0Cells45 ++ page0Cells67 ++
    page0Cells89 ++ page0CellsAB ++ page0CellsCD ++ page0CellsEF
  pages := [⟨0x18#8, page18Cells⟩, ⟨0x1A#8, page1ACells⟩, ⟨0xCD#8, pageCDCells⟩]

/-! ## The decoder -/

/-- The row for an opcode byte after this prebyte or none: its format. No row, or a row that names a form the instruction
does not have, is an illegal code (30_encoding.md R96, R112; log 1). -/
def lookup (m : OpcodeMap) (pre : Option Byte) (op : Byte) : Option Shape :=
  ((m.cells pre).find? fun c => c.opcode == op).bind OpcodeCell.shape

/-- The instruction that a row and the bytes after the opcode make, with the bytes left over (30_encoding.md R94, R97
to R103): the operand bytes in the order address or offset, mask, displacement. -/
def parseOperands : Shape → List Byte → Option (Instr × List Byte)
  | .inh i, rest => some (i, rest)
  | .imm8 mk, ii :: rest => some (mk (.imm ii), rest)
  | .imm16 mk, jj :: kk :: rest => some (mk (.imm (join jj kk)), rest)
  | .dir mk, dd :: rest => some (mk (.dir dd), rest)
  | .ext mk, hh :: ll :: rest => some (mk (.ext (join hh ll)), rest)
  | .indx mk, ff :: rest => some (mk (.indx ff), rest)
  | .indy mk, ff :: rest => some (mk (.indy ff), rest)
  | .rel mk, rr :: rest => some (mk rr, rest)
  | .dirM mk, dd :: mm :: rest => some (mk (.dir dd) mm, rest)
  | .indxM mk, ff :: mm :: rest => some (mk (.indx ff) mm, rest)
  | .indyM mk, ff :: mm :: rest => some (mk (.indy ff) mm, rest)
  | .dirMRel mk, dd :: mm :: rr :: rest => some (mk (.dir dd) mm rr, rest)
  | .indxMRel mk, ff :: mm :: rr :: rest => some (mk (.indx ff) mm rr, rest)
  | .indyMRel mk, ff :: mm :: rr :: rest => some (mk (.indy ff) mm rr, rest)
  | _, _ => none

/-- Why bytes are no instruction. -/
inductive DecodeError where
  /-- The bytes end before the instruction does. -/
  | truncated
  /-- There is no row for the opcode byte after this prebyte or none: an illegal encoding (30_encoding.md R112, R113). -/
  | illegalOpcode (pre : Option Byte) (op : Byte)
deriving DecidableEq, Repr

/-- The rest of decoding once the prebyte and the opcode byte are known (30_encoding.md R96). -/
def decodeOpcode (m : OpcodeMap) (pre : Option Byte) (op : Byte) (rest : List Byte) :
    Except DecodeError (Instr × List Byte) :=
  match lookup m pre op with
  | none => .error (.illegalOpcode pre op)
  | some shape =>
    match parseOperands shape rest with
    | none => .error .truncated
    | some r => .ok r

/-- The decoder (30_encoding.md R96): the instruction that the bytes begin with and the bytes left over. A prebyte is
looked for once, so a prebyte after a prebyte is an opcode byte of the first one's page (R113). -/
def decode (m : OpcodeMap) : List Byte → Except DecodeError (Instr × List Byte)
  | [] => .error .truncated
  | b :: rest =>
    if m.isPrebyte b then
      match rest with
      | [] => .error .truncated
      | op :: rest => decodeOpcode m (some b) op rest
    else decodeOpcode m none b rest

/-- The number of operand bytes the decoder fetches after the opcode byte (30_encoding.md R95, R96): none for an
illegal code, whose operand bytes are not fetched (60_exceptions.md R340). -/
def operandCount (m : OpcodeMap) (pre : Option Byte) (op : Byte) : Nat :=
  match lookup m pre op with
  | none => 0
  | some shape => operandBytes shape

/-! ## An instruction as a row of the table and operand bytes -/

/-- An instruction taken apart: its row's mnemonic and mode, and its operand bytes in the order of 30_encoding.md R94. -/
structure Parts where
  mnemonic : Mnemonic
  mode : AddrMode
  operands : List Byte
deriving DecidableEq, Repr

/-- The parts of an instruction with a memory operand, and the bytes that follow it. -/
def partsMem (n : Mnemonic) (tail : List Byte) : Mem → Parts
  | .dir dd => ⟨n, .dir, dd :: tail⟩
  | .ext hhll => ⟨n, .ext, hiByte hhll :: loByte hhll :: tail⟩
  | .indx ff => ⟨n, .indx, ff :: tail⟩
  | .indy ff => ⟨n, .indy, ff :: tail⟩

/-- The parts of an instruction with an `#i8` or `m` operand. -/
def partsOp8 (n : Mnemonic) : Operand8 → Parts
  | .imm ii => ⟨n, .imm8, [ii]⟩
  | .mem m => partsMem n [] m

/-- The parts of an instruction with an `#i16` or `m` operand. -/
def partsOp16 (n : Mnemonic) : Operand16 → Parts
  | .imm jjkk => ⟨n, .imm16, [hiByte jjkk, loByte jjkk]⟩
  | .mem m => partsMem n [] m

/-- The parts of every instruction. -/
def Instr.parts : Instr → Parts
  | .aba => ⟨.aba, .inh, []⟩
  | .adca op => partsOp8 .adca op
  | .adcb op => partsOp8 .adcb op
  | .adda op => partsOp8 .adda op
  | .addb op => partsOp8 .addb op
  | .addd op => partsOp16 .addd op
  | .cba => ⟨.cba, .inh, []⟩
  | .cmpa op => partsOp8 .cmpa op
  | .cmpb op => partsOp8 .cmpb op
  | .cpd op => partsOp16 .cpd op
  | .daa => ⟨.daa, .inh, []⟩
  | .dec m => partsMem .dec [] m
  | .deca => ⟨.deca, .inh, []⟩
  | .decb => ⟨.decb, .inh, []⟩
  | .fdiv => ⟨.fdiv, .inh, []⟩
  | .idiv => ⟨.idiv, .inh, []⟩
  | .inc m => partsMem .inc [] m
  | .inca => ⟨.inca, .inh, []⟩
  | .incb => ⟨.incb, .inh, []⟩
  | .mul => ⟨.mul, .inh, []⟩
  | .neg m => partsMem .neg [] m
  | .nega => ⟨.nega, .inh, []⟩
  | .negb => ⟨.negb, .inh, []⟩
  | .sba => ⟨.sba, .inh, []⟩
  | .sbca op => partsOp8 .sbca op
  | .sbcb op => partsOp8 .sbcb op
  | .suba op => partsOp8 .suba op
  | .subb op => partsOp8 .subb op
  | .subd op => partsOp16 .subd op
  | .tst m => partsMem .tst [] m
  | .tsta => ⟨.tsta, .inh, []⟩
  | .tstb => ⟨.tstb, .inh, []⟩
  | .anda op => partsOp8 .anda op
  | .andb op => partsOp8 .andb op
  | .asr m => partsMem .asr [] m
  | .asra => ⟨.asra, .inh, []⟩
  | .asrb => ⟨.asrb, .inh, []⟩
  | .bclr m mm => partsMem .bclr [mm] m
  | .bita op => partsOp8 .bita op
  | .bitb op => partsOp8 .bitb op
  | .bset m mm => partsMem .bset [mm] m
  | .com m => partsMem .com [] m
  | .coma => ⟨.coma, .inh, []⟩
  | .comb => ⟨.comb, .inh, []⟩
  | .eora op => partsOp8 .eora op
  | .eorb op => partsOp8 .eorb op
  | .lsl m => partsMem .lsl [] m
  | .lsla => ⟨.lsla, .inh, []⟩
  | .lslb => ⟨.lslb, .inh, []⟩
  | .lsld => ⟨.lsld, .inh, []⟩
  | .lsr m => partsMem .lsr [] m
  | .lsra => ⟨.lsra, .inh, []⟩
  | .lsrb => ⟨.lsrb, .inh, []⟩
  | .lsrd => ⟨.lsrd, .inh, []⟩
  | .oraa op => partsOp8 .oraa op
  | .orab op => partsOp8 .orab op
  | .rol m => partsMem .rol [] m
  | .rola => ⟨.rola, .inh, []⟩
  | .rolb => ⟨.rolb, .inh, []⟩
  | .ror m => partsMem .ror [] m
  | .rora => ⟨.rora, .inh, []⟩
  | .rorb => ⟨.rorb, .inh, []⟩
  | .abx => ⟨.abx, .inh, []⟩
  | .aby => ⟨.aby, .inh, []⟩
  | .cpx op => partsOp16 .cpx op
  | .cpy op => partsOp16 .cpy op
  | .des => ⟨.des, .inh, []⟩
  | .dex => ⟨.dex, .inh, []⟩
  | .dey => ⟨.dey, .inh, []⟩
  | .ins => ⟨.ins, .inh, []⟩
  | .inx => ⟨.inx, .inh, []⟩
  | .iny => ⟨.iny, .inh, []⟩
  | .lds op => partsOp16 .lds op
  | .ldx op => partsOp16 .ldx op
  | .ldy op => partsOp16 .ldy op
  | .pshx => ⟨.pshx, .inh, []⟩
  | .pshy => ⟨.pshy, .inh, []⟩
  | .pulx => ⟨.pulx, .inh, []⟩
  | .puly => ⟨.puly, .inh, []⟩
  | .sts m => partsMem .sts [] m
  | .stx m => partsMem .stx [] m
  | .sty m => partsMem .sty [] m
  | .tsx => ⟨.tsx, .inh, []⟩
  | .tsy => ⟨.tsy, .inh, []⟩
  | .txs => ⟨.txs, .inh, []⟩
  | .tys => ⟨.tys, .inh, []⟩
  | .xgdx => ⟨.xgdx, .inh, []⟩
  | .xgdy => ⟨.xgdy, .inh, []⟩
  | .clr m => partsMem .clr [] m
  | .clra => ⟨.clra, .inh, []⟩
  | .clrb => ⟨.clrb, .inh, []⟩
  | .ldaa op => partsOp8 .ldaa op
  | .ldab op => partsOp8 .ldab op
  | .ldd op => partsOp16 .ldd op
  | .psha => ⟨.psha, .inh, []⟩
  | .pshb => ⟨.pshb, .inh, []⟩
  | .pula => ⟨.pula, .inh, []⟩
  | .pulb => ⟨.pulb, .inh, []⟩
  | .staa m => partsMem .staa [] m
  | .stab m => partsMem .stab [] m
  | .std m => partsMem .std [] m
  | .tab => ⟨.tab, .inh, []⟩
  | .tba => ⟨.tba, .inh, []⟩
  | .bra rr => ⟨.bra, .rel, [rr]⟩
  | .brn rr => ⟨.brn, .rel, [rr]⟩
  | .bhi rr => ⟨.bhi, .rel, [rr]⟩
  | .bls rr => ⟨.bls, .rel, [rr]⟩
  | .bcc rr => ⟨.bcc, .rel, [rr]⟩
  | .bcs rr => ⟨.bcs, .rel, [rr]⟩
  | .bne rr => ⟨.bne, .rel, [rr]⟩
  | .beq rr => ⟨.beq, .rel, [rr]⟩
  | .bvc rr => ⟨.bvc, .rel, [rr]⟩
  | .bvs rr => ⟨.bvs, .rel, [rr]⟩
  | .bpl rr => ⟨.bpl, .rel, [rr]⟩
  | .bmi rr => ⟨.bmi, .rel, [rr]⟩
  | .bge rr => ⟨.bge, .rel, [rr]⟩
  | .blt rr => ⟨.blt, .rel, [rr]⟩
  | .bgt rr => ⟨.bgt, .rel, [rr]⟩
  | .ble rr => ⟨.ble, .rel, [rr]⟩
  | .brclr m mm rr => partsMem .brclr [mm, rr] m
  | .brset m mm rr => partsMem .brset [mm, rr] m
  | .bsr rr => ⟨.bsr, .rel, [rr]⟩
  | .jmp m => partsMem .jmp [] m
  | .jsr m => partsMem .jsr [] m
  | .nop => ⟨.nop, .inh, []⟩
  | .rti => ⟨.rti, .inh, []⟩
  | .rts => ⟨.rts, .inh, []⟩
  | .stop => ⟨.stop, .inh, []⟩
  | .swi => ⟨.swi, .inh, []⟩
  | .wai => ⟨.wai, .inh, []⟩
  | .clc => ⟨.clc, .inh, []⟩
  | .cli => ⟨.cli, .inh, []⟩
  | .clv => ⟨.clv, .inh, []⟩
  | .sec => ⟨.sec, .inh, []⟩
  | .sei => ⟨.sei, .inh, []⟩
  | .sev => ⟨.sev, .inh, []⟩
  | .tap => ⟨.tap, .inh, []⟩
  | .tpa => ⟨.tpa, .inh, []⟩

/-- The bytes of an instruction in fetch order: prebyte, opcode, operands (30_encoding.md R90). -/
def rowBytes (pre : Option Byte) (op : Byte) (operands : List Byte) : List Byte := pre.toList ++ op :: operands

/-- The first row of a table with this mnemonic and mode: its prebyte, if any, and its opcode byte. -/
def OpcodeMap.locate (m : OpcodeMap) (n : Mnemonic) (mode : AddrMode) : Option (Option Byte × Byte) :=
  match m.page0.find? fun c => c.mnemonic == n && c.mode == mode with
  | some c => some (none, c.opcode)
  | none =>
    m.pages.findSome? fun p =>
      (p.cells.find? fun c => c.mnemonic == n && c.mode == mode).map fun c => (some p.prebyte, c.opcode)

/-- The encoder of a table: the bytes it gives an instruction, none where it has no row for it. -/
def encodeWith (m : OpcodeMap) (i : Instr) : Option (List Byte) :=
  (m.locate i.parts.mnemonic i.parts.mode).map fun r => rowBytes r.1 r.2 i.parts.operands

/-! ## The encoder of the default table -/

/-- The bytes of a note A operand after its opcode bytes, one list of opcode bytes for each mode (30_encoding.md R94). -/
def encodeNoteA (dir indx indy ext : List Byte) : Mem → List Byte
  | .dir dd => dir ++ [dd]
  | .indx ff => indx ++ [ff]
  | .indy ff => indy ++ [ff]
  | .ext hhll => ext ++ [hiByte hhll, loByte hhll]

/-- As `encodeNoteA` for note E: no direct form, which has no bytes (30_encoding.md R107). -/
def encodeNoteE (indx indy ext : List Byte) : Mem → List Byte
  | .dir _ => []
  | .indx ff => indx ++ [ff]
  | .indy ff => indy ++ [ff]
  | .ext hhll => ext ++ [hiByte hhll, loByte hhll]

/-- As `encodeNoteA` for note D, with the mask and displacement bytes that follow: no extended form, which has no bytes
(30_encoding.md R94, R107). -/
def encodeNoteD (dir indx indy : List Byte) (tail : List Byte) : Mem → List Byte
  | .dir dd => dir ++ dd :: tail
  | .indx ff => indx ++ ff :: tail
  | .indy ff => indy ++ ff :: tail
  | .ext _ => []

/-- The bytes of an instruction with an `#i8` or `m` operand. -/
def encodeOp8 (imm dir indx indy ext : List Byte) : Operand8 → List Byte
  | .imm ii => imm ++ [ii]
  | .mem m => encodeNoteA dir indx indy ext m

/-- The bytes of an instruction with an `#i16` or `m` operand. -/
def encodeOp16 (imm dir indx indy ext : List Byte) : Operand16 → List Byte
  | .imm jjkk => imm ++ [hiByte jjkk, loByte jjkk]
  | .mem m => encodeNoteA dir indx indy ext m

/-- The bytes of a well-formed instruction, in the order they are fetched (the `Encoding:` lines of R136 to R327). An
instruction that is not well formed has no bytes. -/
def encode : Instr → List Byte
  | .aba => [0x1B]
  | .adca op => encodeOp8 [0x89] [0x99] [0xA9] [0x18, 0xA9] [0xB9] op
  | .adcb op => encodeOp8 [0xC9] [0xD9] [0xE9] [0x18, 0xE9] [0xF9] op
  | .adda op => encodeOp8 [0x8B] [0x9B] [0xAB] [0x18, 0xAB] [0xBB] op
  | .addb op => encodeOp8 [0xCB] [0xDB] [0xEB] [0x18, 0xEB] [0xFB] op
  | .addd op => encodeOp16 [0xC3] [0xD3] [0xE3] [0x18, 0xE3] [0xF3] op
  | .cba => [0x11]
  | .cmpa op => encodeOp8 [0x81] [0x91] [0xA1] [0x18, 0xA1] [0xB1] op
  | .cmpb op => encodeOp8 [0xC1] [0xD1] [0xE1] [0x18, 0xE1] [0xF1] op
  | .cpd op => encodeOp16 [0x1A, 0x83] [0x1A, 0x93] [0x1A, 0xA3] [0xCD, 0xA3] [0x1A, 0xB3] op
  | .daa => [0x19]
  | .dec m => encodeNoteE [0x6A] [0x18, 0x6A] [0x7A] m
  | .deca => [0x4A]
  | .decb => [0x5A]
  | .fdiv => [0x03]
  | .idiv => [0x02]
  | .inc m => encodeNoteE [0x6C] [0x18, 0x6C] [0x7C] m
  | .inca => [0x4C]
  | .incb => [0x5C]
  | .mul => [0x3D]
  | .neg m => encodeNoteE [0x60] [0x18, 0x60] [0x70] m
  | .nega => [0x40]
  | .negb => [0x50]
  | .sba => [0x10]
  | .sbca op => encodeOp8 [0x82] [0x92] [0xA2] [0x18, 0xA2] [0xB2] op
  | .sbcb op => encodeOp8 [0xC2] [0xD2] [0xE2] [0x18, 0xE2] [0xF2] op
  | .suba op => encodeOp8 [0x80] [0x90] [0xA0] [0x18, 0xA0] [0xB0] op
  | .subb op => encodeOp8 [0xC0] [0xD0] [0xE0] [0x18, 0xE0] [0xF0] op
  | .subd op => encodeOp16 [0x83] [0x93] [0xA3] [0x18, 0xA3] [0xB3] op
  | .tst m => encodeNoteE [0x6D] [0x18, 0x6D] [0x7D] m
  | .tsta => [0x4D]
  | .tstb => [0x5D]
  | .anda op => encodeOp8 [0x84] [0x94] [0xA4] [0x18, 0xA4] [0xB4] op
  | .andb op => encodeOp8 [0xC4] [0xD4] [0xE4] [0x18, 0xE4] [0xF4] op
  | .asr m => encodeNoteE [0x67] [0x18, 0x67] [0x77] m
  | .asra => [0x47]
  | .asrb => [0x57]
  | .bclr m mm => encodeNoteD [0x15] [0x1D] [0x18, 0x1D] [mm] m
  | .bita op => encodeOp8 [0x85] [0x95] [0xA5] [0x18, 0xA5] [0xB5] op
  | .bitb op => encodeOp8 [0xC5] [0xD5] [0xE5] [0x18, 0xE5] [0xF5] op
  | .bset m mm => encodeNoteD [0x14] [0x1C] [0x18, 0x1C] [mm] m
  | .com m => encodeNoteE [0x63] [0x18, 0x63] [0x73] m
  | .coma => [0x43]
  | .comb => [0x53]
  | .eora op => encodeOp8 [0x88] [0x98] [0xA8] [0x18, 0xA8] [0xB8] op
  | .eorb op => encodeOp8 [0xC8] [0xD8] [0xE8] [0x18, 0xE8] [0xF8] op
  | .lsl m => encodeNoteE [0x68] [0x18, 0x68] [0x78] m
  | .lsla => [0x48]
  | .lslb => [0x58]
  | .lsld => [0x05]
  | .lsr m => encodeNoteE [0x64] [0x18, 0x64] [0x74] m
  | .lsra => [0x44]
  | .lsrb => [0x54]
  | .lsrd => [0x04]
  | .oraa op => encodeOp8 [0x8A] [0x9A] [0xAA] [0x18, 0xAA] [0xBA] op
  | .orab op => encodeOp8 [0xCA] [0xDA] [0xEA] [0x18, 0xEA] [0xFA] op
  | .rol m => encodeNoteE [0x69] [0x18, 0x69] [0x79] m
  | .rola => [0x49]
  | .rolb => [0x59]
  | .ror m => encodeNoteE [0x66] [0x18, 0x66] [0x76] m
  | .rora => [0x46]
  | .rorb => [0x56]
  | .abx => [0x3A]
  | .aby => [0x18, 0x3A]
  | .cpx op => encodeOp16 [0x8C] [0x9C] [0xAC] [0xCD, 0xAC] [0xBC] op
  | .cpy op => encodeOp16 [0x18, 0x8C] [0x18, 0x9C] [0x1A, 0xAC] [0x18, 0xAC] [0x18, 0xBC] op
  | .des => [0x34]
  | .dex => [0x09]
  | .dey => [0x18, 0x09]
  | .ins => [0x31]
  | .inx => [0x08]
  | .iny => [0x18, 0x08]
  | .lds op => encodeOp16 [0x8E] [0x9E] [0xAE] [0x18, 0xAE] [0xBE] op
  | .ldx op => encodeOp16 [0xCE] [0xDE] [0xEE] [0xCD, 0xEE] [0xFE] op
  | .ldy op => encodeOp16 [0x18, 0xCE] [0x18, 0xDE] [0x1A, 0xEE] [0x18, 0xEE] [0x18, 0xFE] op
  | .pshx => [0x3C]
  | .pshy => [0x18, 0x3C]
  | .pulx => [0x38]
  | .puly => [0x18, 0x38]
  | .sts m => encodeNoteA [0x9F] [0xAF] [0x18, 0xAF] [0xBF] m
  | .stx m => encodeNoteA [0xDF] [0xEF] [0xCD, 0xEF] [0xFF] m
  | .sty m => encodeNoteA [0x18, 0xDF] [0x1A, 0xEF] [0x18, 0xEF] [0x18, 0xFF] m
  | .tsx => [0x30]
  | .tsy => [0x18, 0x30]
  | .txs => [0x35]
  | .tys => [0x18, 0x35]
  | .xgdx => [0x8F]
  | .xgdy => [0x18, 0x8F]
  | .clr m => encodeNoteE [0x6F] [0x18, 0x6F] [0x7F] m
  | .clra => [0x4F]
  | .clrb => [0x5F]
  | .ldaa op => encodeOp8 [0x86] [0x96] [0xA6] [0x18, 0xA6] [0xB6] op
  | .ldab op => encodeOp8 [0xC6] [0xD6] [0xE6] [0x18, 0xE6] [0xF6] op
  | .ldd op => encodeOp16 [0xCC] [0xDC] [0xEC] [0x18, 0xEC] [0xFC] op
  | .psha => [0x36]
  | .pshb => [0x37]
  | .pula => [0x32]
  | .pulb => [0x33]
  | .staa m => encodeNoteA [0x97] [0xA7] [0x18, 0xA7] [0xB7] m
  | .stab m => encodeNoteA [0xD7] [0xE7] [0x18, 0xE7] [0xF7] m
  | .std m => encodeNoteA [0xDD] [0xED] [0x18, 0xED] [0xFD] m
  | .tab => [0x16]
  | .tba => [0x17]
  | .bra rr => [0x20, rr]
  | .brn rr => [0x21, rr]
  | .bhi rr => [0x22, rr]
  | .bls rr => [0x23, rr]
  | .bcc rr => [0x24, rr]
  | .bcs rr => [0x25, rr]
  | .bne rr => [0x26, rr]
  | .beq rr => [0x27, rr]
  | .bvc rr => [0x28, rr]
  | .bvs rr => [0x29, rr]
  | .bpl rr => [0x2A, rr]
  | .bmi rr => [0x2B, rr]
  | .bge rr => [0x2C, rr]
  | .blt rr => [0x2D, rr]
  | .bgt rr => [0x2E, rr]
  | .ble rr => [0x2F, rr]
  | .brclr m mm rr => encodeNoteD [0x13] [0x1F] [0x18, 0x1F] [mm, rr] m
  | .brset m mm rr => encodeNoteD [0x12] [0x1E] [0x18, 0x1E] [mm, rr] m
  | .bsr rr => [0x8D, rr]
  | .jmp m => encodeNoteE [0x6E] [0x18, 0x6E] [0x7E] m
  | .jsr m => encodeNoteA [0x9D] [0xAD] [0x18, 0xAD] [0xBD] m
  | .nop => [0x01]
  | .rti => [0x3B]
  | .rts => [0x39]
  | .stop => [0xCF]
  | .swi => [0x3F]
  | .wai => [0x3E]
  | .clc => [0x0C]
  | .cli => [0x0E]
  | .clv => [0x0A]
  | .sec => [0x0D]
  | .sei => [0x0F]
  | .sev => [0x0B]
  | .tap => [0x06]
  | .tpa => [0x07]

/-! ## The words of spec/opcode_table.json -/

/-- The bytes, in fetch order, of an instruction whose bits are `w`, followed by zero bytes up to the longest
instruction (30_encoding.md R90: five bytes). Bit 0 is the least significant bit of the first byte and a later byte's
bits count on from it, EXCEPT in the two-byte words of the table's prebyte rows: 30_encoding.md R111 puts their first
byte, the prebyte, in the high half (log 2). A byte that follows a legal prebyte is never itself a prebyte (R113), so
which half holds the prebyte decides the order. -/
def tableBytes (nbits w : Nat) : List Byte :=
  let byte (k : Nat) : Byte := BitVec.ofNat 8 (w / 2 ^ (8 * k))
  if nbits = 16 ∧ defaultOpcodeMap.isPrebyte (byte 1) ∧ ¬ defaultOpcodeMap.isPrebyte (byte 0) then
    [byte 1, byte 0, 0, 0, 0]
  else
    [byte 0, byte 1, byte 2, byte 3, byte 4]

/-- The instruction the decoder reads from a word of the table, with the default `OPCODE_MAP`. -/
def decodeTableWord (nbits w : Nat) : Option Instr :=
  match decode defaultOpcodeMap (tableBytes nbits w) with
  | .ok (i, _) => some i
  | .error _ => none

end Sys2Proof
end

