-- ==== Sys2Proof/Config.lean ====
section
/-!
DEFINITION. What an implementation fixes (00_scope.md R7) and the values the spec leaves free (`draw`, 00_scope.md R13).
The parameters are plain data carried by the state and never changed by a step, so that a statement over every
state is a statement over every configuration. The free values are constants without a body: nothing can be proved
of their values.
-/

namespace Sys2Proof

/-- `MODE` of 00_scope.md R7: the operating mode at reset (70_reset_and_hazards.md R382). It selects the vector page. -/
inductive Mode where
  | normal
  | testOrBoot
deriving DecidableEq, Repr

/-- What `MEMMAP` says stands at an address (00_scope.md R7, 20_memory.md R61 to R63). -/
inductive Kind where
  /-- Read and write memory: it holds the byte last written (20_memory.md R62). -/
  | ram
  /-- Read-only memory: it holds its configured content, a write is discarded (20_memory.md R63, D26; log 8). -/
  | rom
  /-- A device: the environment answers reads and takes writes (20_memory.md R66). -/
  | io
  /-- Nothing: a read gives a fresh free byte, a write is discarded (20_memory.md R62, R63, D26; log 8). -/
  | nothing
deriving DecidableEq, Repr

/-- One entry of `MEMMAP`: the addresses from `lo` to `hi`, both included (20_memory.md R61). -/
structure Region where
  lo : Word
  hi : Word
  kind : Kind
deriving DecidableEq, Repr

/-- `ILLOP_RETURN` of 00_scope.md R7: the program counter the illegal-opcode trap stacks (60_exceptions.md R340, D8). -/
inductive IllopReturn where
  /-- The address of the first byte of the illegal encoding, the prebyte if there is one: the spec's default. -/
  | firstByte
  /-- The address of the byte after the illegal opcode byte. -/
  | afterOpcode
deriving DecidableEq, Repr

/-- The parameters of 00_scope.md R7 that are data. `IRQ_ARBITER` and `DEVICES` are in the lines the environment
presents and in `Config.deviceByte`; `RESET_UNSPEC` is `Config.draw`. -/
structure Config where
  /-- `MODE` (70_reset_and_hazards.md R382). -/
  mode : Mode
  /-- `REG_BASE`: the address of offset 0x00 of the 64-byte I/O register block (10_state.md R40). -/
  regBase : Word
  /-- `MEMMAP` outside the I/O block: the first region that holds an address says what stands there, and an address
  of no region has nothing behind it (20_memory.md R61). -/
  regions : List Region
  /-- `OPCODE_MAP`: the table the decoder looks opcodes up in (30_encoding.md R96, D1). -/
  opcodeMap : OpcodeMap
  /-- `ILLOP_RETURN` (60_exceptions.md R340). -/
  illopReturn : IllopReturn
  /-- The launch premise of 70_reset_and_hazards.md R380 and D22 that RAM keeps its content across a reset other
  than power-on. -/
  ramRetained : Bool
deriving DecidableEq, Repr

/-- The configuration of the state after reset. MODE, OPCODE_MAP and ILLOP_RETURN are the spec's defaults (D20, D1, D8),
no RAM retention is the spec's default (D22). PRESUMED, unsafe: REG_BASE is the family's 0x1000 (D11 leaves it open).
DESIGN CHOICE, unsafe: every address outside the I/O block is RAM (D12 leaves it open). Log 7. -/
def Config.initial : Config where
  mode := .normal
  regBase := 0x1000#16
  regions := [⟨0x0000#16, 0xFFFF#16, .ram⟩]
  opcodeMap := defaultOpcodeMap
  illopReturn := .firstByte
  ramRetained := false

/-- One access of the CPU to an I/O address, as the environment sees it (20_memory.md R66). -/
inductive IoAccess where
  | read (addr : Word)
  | write (addr : Word) (value : Byte)
deriving DecidableEq, Repr

/-- `draw(n)` of 00_scope.md R13: the k-th value the spec leaves open, of which a rule takes the low n bits. A free
value: no proof can see what it is, and a different k may give a different value. -/
opaque Config.draw : Nat → Word

/-- The byte at an address of RAM that nothing has written since RAM last lost its content (the RAM generation), and
the configured byte of ROM that the state does not list (20_memory.md R62, U8 of 93_implementation_defined.md).
A free value (log 5). -/
opaque Config.unwritten : Nat → Word → Byte

/-- `DEVICES` of 00_scope.md R7: the byte the environment answers to a read of an I/O address, given every access it
has seen so far, the latest first (20_memory.md R66, 60_exceptions.md R360). A free value (log 9). -/
opaque Config.deviceByte : List IoAccess → Word → Byte

end Sys2Proof
end

