-- ==== Sys2Proof/Machine/State.lean ====
section
/-!
DEFINITION. The state of the machine: every piece of state the spec gives the CPU (10_state.md), the lines of the
environment that it looks at (60_exceptions.md section 2), the history of I/O accesses, the configuration, and three
fields of the model's own. All of it is plain data.
-/

namespace Sys2Proof.Machine

/-- Memory as the list of the bytes that hold a value, by strictly rising address. A byte that is not listed holds no
value (20_memory.md R62; log 5). -/
abbrev Memory := List Host.Cell

/-- The run state of the CPU (10_state.md R44(b), 60_exceptions.md R352). -/
inductive RunState where
  | running
  /-- After WAI: the registers are stacked already. -/
  | waiting
  /-- After STOP with S = 0. -/
  | stopped
deriving DecidableEq, Repr

/-- The causes of a reset (10_state.md R44(c), 70_reset_and_hazards.md R380, R381). -/
inductive ResetCause where
  | powerOn
  /-- The reset pin: it shares its vector with power-on. -/
  | pin
  | clockMonitor
  | cop
deriving DecidableEq, Repr

/-- The fifteen interrupt sources the I bit masks (60_exceptions.md R330, R341, R342), named after the sheet's vector
list. -/
inductive IrqSource where
  /-- External IRQ or parallel I/O. -/
  | irq
  | realTime
  | inputCapture1
  | inputCapture2
  | inputCapture3
  | outputCapture1
  | outputCapture2
  | outputCapture3
  | outputCapture4
  | outputCapture5
  | timerOverflow
  | pulseAccumulatorOverflow
  | pulseAccumulatorEdge
  | spi
  | sci
deriving DecidableEq, Repr

/-- What the environment presents to the CPU at an instruction boundary (10_state.md R44(a), 60_exceptions.md R333). -/
structure Lines where
  /-- A reset the environment asserts (70_reset_and_hazards.md R383). Taking it withdraws it (log 10). -/
  reset : Option ResetCause
  /-- The XIRQ request (60_exceptions.md R339). -/
  xirq : Bool
  /-- The pending maskable requests. The first is the one `IRQ_ARBITER` takes: no order is imposed, so any pending
  source may be the one taken (60_exceptions.md R335; log 11). -/
  maskable : List IrqSource
  /-- Whether a maskable request is held off at the boundary right after a CLI or TAP that cleared I; both are
  admitted (60_exceptions.md R334, 70_reset_and_hazards.md R392; log 12). -/
  holdOff : Bool
deriving DecidableEq, Repr

/-- Nothing asserted. -/
def Lines.quiet : Lines where
  reset := none
  xirq := false
  maskable := []
  holdOff := false

/-- The state of the machine at an instruction boundary. -/
structure State where
  /-- Accumulator A, bits 15 to 8 of D (10_state.md R21, R22). -/
  a : Byte
  /-- Accumulator B, bits 7 to 0 of D (10_state.md R21, R22). -/
  b : Byte
  /-- Index register IX (10_state.md R23). -/
  ix : Word
  /-- Index register IY (10_state.md R24). -/
  iy : Word
  /-- Stack pointer: the address of the next free byte (10_state.md R25). -/
  sp : Word
  /-- Program counter: the address of the next instruction (10_state.md R26); while an instruction executes, that is
  `pc_next`, the address after its last byte (R27). -/
  pc : Word
  /-- Condition code register S X H I N Z V C, bits 7 to 0 (10_state.md R29). -/
  ccr : Byte
  /-- Running, Waiting or Stopped (10_state.md R44(b)). -/
  run : RunState
  /-- The cause of the last reset (10_state.md R44(c)). -/
  lastReset : ResetCause
  /-- The bytes of RAM and ROM that hold a value (20_memory.md R60 to R62). -/
  mem : Memory
  /-- What the environment presents now (10_state.md R44(a)). -/
  lines : Lines
  /-- The MODEL's own: what the environment presents at the coming boundaries, the next one first. When it is empty
  the present lines stay (log 10). -/
  script : List Lines
  /-- The instruction just executed was a CLI or TAP that took I from 1 to 0 (60_exceptions.md R334, D21). -/
  lateClear : Bool
  /-- Every access to an I/O address, the latest first: what the environment has been asked and handed
  (20_memory.md R66). -/
  io : List IoAccess
  /-- The MODEL's own: how many free values have been drawn (`Config.draw`). -/
  draws : Nat
  /-- The MODEL's own: how often RAM has lost its content (`Config.unwritten`). -/
  generation : Nat
  /-- The configuration; no step changes it (00_scope.md R7, R14). -/
  cfg : Config
deriving DecidableEq, Repr

/-- Why the machine stops. No step of this CPU stops: the list of events of 60_exceptions.md R330 has no bus error,
no access fault and no divide trap, and memory accesses cannot fault (20_memory.md R63). So there is no constructor
(log 24). -/
inductive Fault where
deriving DecidableEq, Repr

/-- Why the model gives an instruction no meaning. -/
inductive Refusal where
  /-- Raised by an arm of `exec` that has no meaning yet. Safe: nothing can be claimed after it. -/
  | notModelled (mnemonic : String)
deriving DecidableEq, Repr

/-- What an instruction, and a step, answers. -/
abbrev Out := Host.Outcome State Fault Refusal

/-- The machine right after reset (10_state.md R45, 70_reset_and_hazards.md R380): S, X and I are 1, the CPU runs.
The values no source gives are named ones: DESIGN CHOICE, unsafe, zero for A, B, IX, IY, SP, H, N, Z, V, C (log 3),
0x0000 for PC, which stands for the content of the reset vector (log 4), and power-on, no line asserted, empty
histories and zero counters (log 25). Memory lists nothing. -/
def State.reset : State where
  a := 0x00#8
  b := 0x00#8
  ix := 0x0000#16
  iy := 0x0000#16
  sp := 0x0000#16
  pc := 0x0000#16
  ccr := 0xD0#8
  run := .running
  lastReset := .powerOn
  mem := []
  lines := Lines.quiet
  script := []
  lateClear := false
  io := []
  draws := 0
  generation := 0
  cfg := Config.initial

end Sys2Proof.Machine
end

