-- ==== Sys2Proof/Machine/Flags.lean ====
section
/-!
DEFINITION. The condition code register and every flag computation: the laws of 40_arithmetic.md R130 to R134 and
41_bitwise.md R180, and the one-operand operations on a byte. A computation answers a result together with the
condition codes it leaves.
-/

namespace Sys2Proof.Machine

/-- The bits of the CCR (10_state.md R29). -/
inductive Flag where
  /-- Carry/Borrow. -/
  | c
  /-- Two's complement overflow. -/
  | v
  /-- Zero. -/
  | z
  /-- Negative. -/
  | n
  /-- Interrupt mask. -/
  | i
  /-- Half carry. -/
  | h
  /-- XIRQ mask. -/
  | x
  /-- Stop disable. -/
  | s
deriving DecidableEq, Repr

/-- The bit number of a flag (10_state.md R29). -/
def flagBit : Flag → Nat
  | .c => 0
  | .v => 1
  | .z => 2
  | .n => 3
  | .i => 4
  | .h => 5
  | .x => 6
  | .s => 7

/-- A flag of a CCR value. -/
def getFlag (ccr : Byte) (f : Flag) : Bool := ccr.getLsbD (flagBit f)

/-- A CCR value with one flag written and the other seven kept. -/
def putFlag (ccr : Byte) (f : Flag) (value : Bool) : Byte :=
  if value then ccr ||| BitVec.twoPow 8 (flagBit f) else ccr &&& ~~~ BitVec.twoPow 8 (flagBit f)

/-- A flag of the state. -/
def State.flag (s : State) (f : Flag) : Bool := getFlag s.ccr f

/-- Write Z alone (INX, DEX, INY, DEY; 10_state.md R32). -/
def putZ (ccr : Byte) (z : Bool) : Byte := putFlag ccr .z z

/-- Write N, Z and V. -/
def putNZV (ccr : Byte) (n z v : Bool) : Byte := putFlag (putFlag (putFlag ccr .n n) .z z) .v v

/-- Write N, Z, V and C. -/
def putNZVC (ccr : Byte) (n z v c : Bool) : Byte := putFlag (putNZV ccr n z v) .c c

/-- Write H, N, Z, V and C. -/
def putHNZVC (ccr : Byte) (h n z v c : Bool) : Byte := putFlag (putNZVC ccr n z v c) .h h

/-- What loading the CCR as a byte gives (TAP, RTI): every bit from the new value, but X can be cleared and not set:
X_new = X_old AND new[6] (10_state.md R36; C5 of 90_conflicts.md). -/
def loadCcr (old new : Byte) : Byte := (new &&& 0xBF#8) ||| (new &&& old &&& 0x40#8)

/-- An 8-bit result with the condition codes it leaves. -/
structure Res8 where
  val : Byte
  ccr : Byte
deriving DecidableEq, Repr

/-- A 16-bit result with the condition codes it leaves. -/
structure Res16 where
  val : Word
  ccr : Byte
deriving DecidableEq, Repr

/-! ## Addition and subtraction -/

/-- ADD8(x, y, cin), 40_arithmetic.md R130: H, N, Z, V and C are written. -/
def add8 (x y : Byte) (cin : Bool) (ccr : Byte) : Res8 :=
  let s9 := x.toNat + y.toNat + cin.toNat
  let r := BitVec.ofNat 8 s9
  { val := r
    ccr := putHNZVC ccr
      (decide (x.toNat % 16 + y.toNat % 16 + cin.toNat > 15))
      r.msb
      (r == 0#8)
      (x.msb == y.msb && r.msb != x.msb)
      (decide (s9 > 255)) }

/-- SUB8(x, y, bin), 40_arithmetic.md R131: N, Z, V and C are written. -/
def sub8 (x y : Byte) (bin : Bool) (ccr : Byte) : Res8 :=
  let r := x - y - BitVec.ofNat 8 bin.toNat
  { val := r
    ccr := putNZVC ccr r.msb (r == 0#8)
      (x.msb != y.msb && r.msb != x.msb)
      (decide (x.toNat < y.toNat + bin.toNat)) }

/-- ADD16(x, y), 40_arithmetic.md R132. -/
def add16 (x y : Word) (ccr : Byte) : Res16 :=
  let r := x + y
  { val := r
    ccr := putNZVC ccr r.msb (r == 0#16)
      (x.msb == y.msb && r.msb != x.msb)
      (decide (x.toNat + y.toNat > 65535)) }

/-- SUB16(x, y), 40_arithmetic.md R133. -/
def sub16 (x y : Word) (ccr : Byte) : Res16 :=
  let r := x - y
  { val := r
    ccr := putNZVC ccr r.msb (r == 0#16)
      (x.msb != y.msb && r.msb != x.msb)
      (decide (x.toNat < y.toNat)) }

/-- NZ8(r), 40_arithmetic.md R134. -/
def nz8 (r ccr : Byte) : Byte := putNZV ccr r.msb (r == 0#8) false

/-- NZ16(r), 40_arithmetic.md R134. -/
def nz16 (r : Word) (ccr : Byte) : Byte := putNZV ccr r.msb (r == 0#16) false

/-! ## One-operand operations: operand and condition codes in, result and condition codes out -/

/-- DEC, DECA, DECB (40_arithmetic.md R147 to R149): C is kept, V is 1 exactly when the operand is 0x80. -/
def decrement8 (x ccr : Byte) : Res8 :=
  let r := x - 1#8
  { val := r, ccr := putNZV ccr r.msb (r == 0#8) (x == 0x80#8) }

/-- INC, INCA, INCB (40_arithmetic.md R152 to R154): C is kept, V is 1 exactly when the operand is 0x7F. -/
def increment8 (x ccr : Byte) : Res8 :=
  let r := x + 1#8
  { val := r, ccr := putNZV ccr r.msb (r == 0#8) (x == 0x7F#8) }

/-- NEG, NEGA, NEGB (40_arithmetic.md R156 to R158): SUB8(0, x, 0). -/
def negate8 (x ccr : Byte) : Res8 := sub8 0#8 x false ccr

/-- TST, TSTA, TSTB (40_arithmetic.md R165 to R167): the condition codes only. -/
def test8 (x ccr : Byte) : Byte := putNZVC ccr x.msb (x == 0#8) false false

/-- CLR, CLRA, CLRB (43_data_transfer.md R260 to R262): N 0, Z 1, V 0, C 0. -/
def clearFlags (ccr : Byte) : Byte := putNZVC ccr false true false false

/-- COM, COMA, COMB (41_bitwise.md R190 to R192): NZ8 of the complement, C 1. -/
def complement8 (x ccr : Byte) : Res8 :=
  let r := x ^^^ 0xFF#8
  { val := r, ccr := putFlag (nz8 r ccr) .c true }

/-- BCLR (41_bitwise.md R186). -/
def bitClear8 (mm x ccr : Byte) : Res8 :=
  let r := x &&& (mm ^^^ 0xFF#8)
  { val := r, ccr := nz8 r ccr }

/-- BSET (41_bitwise.md R189). -/
def bitSet8 (mm x ccr : Byte) : Res8 :=
  let r := x ||| mm
  { val := r, ccr := nz8 r ccr }

/-! ## Shifts and rotates -/

/-- The flags of every shift and rotate (41_bitwise.md R180): C is the bit that leaves, V is N xor C after the shift
(D19, log 16). -/
def shiftFlags (ccr : Byte) (n z out : Bool) : Byte := putNZVC ccr n z (n != out) out

/-- The result of an 8-bit shift with the bit that leaves. -/
def shifted8 (r : Byte) (out : Bool) (ccr : Byte) : Res8 :=
  { val := r, ccr := shiftFlags ccr r.msb (r == 0#8) out }

/-- The result of a 16-bit shift with the bit that leaves. -/
def shifted16 (r : Word) (out : Bool) (ccr : Byte) : Res16 :=
  { val := r, ccr := shiftFlags ccr r.msb (r == 0#16) out }

/-- ASR, ASRA, ASRB (41_bitwise.md R183 to R185): bit 7 is kept. -/
def arithShiftRight8 (x ccr : Byte) : Res8 := shifted8 (x.sshiftRight 1) (x.getLsbD 0) ccr

/-- LSL, LSLA, LSLB (41_bitwise.md R195 to R197). -/
def shiftLeft8 (x ccr : Byte) : Res8 := shifted8 (x <<< 1) x.msb ccr

/-- LSR, LSRA, LSRB (41_bitwise.md R199 to R201). -/
def shiftRight8 (x ccr : Byte) : Res8 := shifted8 (x >>> 1) (x.getLsbD 0) ccr

/-- ROL, ROLA, ROLB (41_bitwise.md R205 to R207): the old C enters at bit 0. -/
def rotateLeft8 (x ccr : Byte) : Res8 :=
  shifted8 ((x <<< 1) ||| (BitVec.ofBool (getFlag ccr .c)).setWidth 8) x.msb ccr

/-- ROR, RORA, RORB (41_bitwise.md R208 to R210): the old C enters at bit 7. -/
def rotateRight8 (x ccr : Byte) : Res8 :=
  shifted8 (BitVec.ofBool (getFlag ccr .c) ++ x.extractLsb' 1 7) (x.getLsbD 0) ccr

/-- LSLD (41_bitwise.md R198). -/
def shiftLeft16 (x : Word) (ccr : Byte) : Res16 := shifted16 (x <<< 1) x.msb ccr

/-- LSRD (41_bitwise.md R202). -/
def shiftRight16 (x : Word) (ccr : Byte) : Res16 := shifted16 (x >>> 1) (x.getLsbD 0) ccr

/-! ## Decimal adjust, multiply and divide -/

/-- DAA (40_arithmetic.md R146): the carry out of the first correction counts as C for the second test (D2, log 17).
V is the free value `v`. -/
def decimalAdjust (x ccr : Byte) (v : Bool) : Res8 :=
  let loAdj := getFlag ccr .h || decide (x.toNat % 16 > 9)
  let t9 := x.toNat + if loAdj then 0x06 else 0
  let hiAdj := getFlag ccr .c || decide (t9 > 255) || decide (t9 / 16 % 16 > 9)
  let r := BitVec.ofNat 8 (t9 + if hiAdj then 0x60 else 0)
  { val := r, ccr := putNZVC ccr r.msb (r == 0#8) v hiAdj }

/-- MUL (40_arithmetic.md R155): the product, and C alone, its bit 7 (D18, log 16). -/
def multiply (x y ccr : Byte) : Res16 :=
  let p := BitVec.ofNat 16 (x.toNat * y.toNat)
  { val := p, ccr := putFlag ccr .c (p.getLsbD 7) }

/-- What a divide leaves: the quotient for IX, the remainder for D, the condition codes. -/
structure DivRes where
  quotient : Word
  remainder : Word
  ccr : Byte
deriving DecidableEq, Repr

/-- Write Z, V and C. -/
def putZVC (ccr : Byte) (z v c : Bool) : Byte := putFlag (putFlag (putFlag ccr .z z) .v v) .c c

/-- IDIV (40_arithmetic.md R151) of `n` by `d`. `free` is the remainder the spec leaves open on division by zero
(log 18). -/
def integerDivide (n d free : Word) (ccr : Byte) : DivRes :=
  if d = 0#16 then
    { quotient := 0xFFFF#16, remainder := free, ccr := putZVC ccr false false true }
  else
    let q := BitVec.ofNat 16 (n.toNat / d.toNat)
    { quotient := q, remainder := BitVec.ofNat 16 (n.toNat % d.toNat)
      ccr := putZVC ccr (q == 0#16) false false }

/-- FDIV (40_arithmetic.md R150) of `n` by `d`. `free` is the remainder the spec leaves open when the quotient does
not fit (log 18). -/
def fractionalDivide (n d free : Word) (ccr : Byte) : DivRes :=
  if d = 0#16 then
    { quotient := 0xFFFF#16, remainder := free, ccr := putZVC ccr false true true }
  else if d.toNat ≤ n.toNat then
    { quotient := 0xFFFF#16, remainder := free, ccr := putZVC ccr false true false }
  else
    let q := BitVec.ofNat 16 (n.toNat * 65536 / d.toNat)
    { quotient := q, remainder := BitVec.ofNat 16 (n.toNat * 65536 % d.toNat)
      ccr := putZVC ccr (q == 0#16) false false }

/-! ## Branch conditions -/

/-- The conditions of the sheet's table (44_jump_branch.md R281). -/
inductive Cond where
  | always | never | higher | lowerSame | carryClear | carrySet | notEqual | equal
  | overflowClear | overflowSet | plus | minus | greaterEqual | lessThan | greater | lessEqual
deriving DecidableEq, Repr

/-- Whether a condition holds on the condition codes before the branch (44_jump_branch.md R281). -/
def condHolds (k : Cond) (ccr : Byte) : Bool :=
  let c := getFlag ccr .c
  let v := getFlag ccr .v
  let z := getFlag ccr .z
  let n := getFlag ccr .n
  match k with
  | .always => true
  | .never => false
  | .higher => !c && !z
  | .lowerSame => c || z
  | .carryClear => !c
  | .carrySet => c
  | .notEqual => !z
  | .equal => z
  | .overflowClear => !v
  | .overflowSet => v
  | .plus => !n
  | .minus => n
  | .greaterEqual => n == v
  | .lessThan => n != v
  | .greater => n == v && !z
  | .lessEqual => n != v || z

end Sys2Proof.Machine
end

