-- ==== Sys2Proof/Machine/Ops.lean ====
section
/-!
DEFINITION. The named operations over memory and registers: the memory map and the access primitives (20_memory.md),
the stack (R70, R71), taking an interrupt or trap and returning from one (60_exceptions.md R336, R343), reset
(70_reset_and_hazards.md R380), and what happens at an instruction boundary (60_exceptions.md R334, R352).
-/

namespace Sys2Proof.Machine

/-! ## Memory as a list of bytes -/

/-- The byte a memory holds at an address, if it holds one. -/
def memRead : Memory → Nat → Option Byte
  | [], _ => none
  | (k, v) :: rest, a => if a = k then some v else memRead rest a

/-- A memory with one byte written. -/
def memWrite : Memory → Nat → Byte → Memory
  | [], a, v => [(a, v)]
  | (k, w) :: rest, a, v =>
    if a < k then (a, v) :: (k, w) :: rest
    else if a = k then (a, v) :: rest
    else (k, w) :: memWrite rest a v

/-- The addresses of a memory rise strictly and are 16-bit addresses: the canonical form. -/
def Memory.wf : Memory → Bool
  | [] => true
  | [(a, _)] => decide (a < 65536)
  | (a, _) :: (b, w) :: rest => decide (a < b) && Memory.wf ((b, w) :: rest)

/-! ## The memory map -/

/-- What stands at an address: the I/O block at REG_BASE first, then the regions of MEMMAP (20_memory.md R61, R66). -/
def kindAt (cfg : Config) (a : Word) : Kind :=
  if (a - cfg.regBase).toNat < 64 then .io
  else
    match cfg.regions.find? fun r => decide (r.lo.toNat ≤ a.toNat) && decide (a.toNat ≤ r.hi.toNat) with
    | some r => r.kind
    | none => .nothing

/-- What stands at an address of this machine. -/
def State.kind (s : State) (a : Word) : Kind := kindAt s.cfg a

/-- The address is memory: RAM or ROM. -/
def State.isMemory (s : State) (a : Word) : Bool := s.kind a == .ram || s.kind a == .rom

/-- The byte of RAM or ROM at an address: the byte it holds, or the free value that stands for a byte nothing has
written (20_memory.md R62; log 5). ROM keeps its content when RAM loses its own. -/
def State.memByte (s : State) (a : Word) : Byte :=
  match memRead s.mem a.toNat with
  | some v => v
  | none => Config.unwritten (if s.kind a = .ram then s.generation else 0) a

/-! ## The access primitives -/

/-- The value of `MemRead(a, 1)` (20_memory.md R62, R66). -/
def peek (a : Word) (s : State) : Byte :=
  match s.kind a with
  | .ram => s.memByte a
  | .rom => s.memByte a
  | .io => Config.deviceByte s.io a
  | .nothing => (Config.draw s.draws).setWidth 8

/-- The state after `MemRead(a, 1)`: a read of a device is recorded, a read of nothing uses up a free value. -/
def touch (a : Word) (s : State) : State :=
  match s.kind a with
  | .ram => s
  | .rom => s
  | .io => { s with io := .read a :: s.io }
  | .nothing => { s with draws := s.draws + 1 }

/-- `MemWrite(a, 1, v)` (20_memory.md R63, R66): RAM takes the value, a device is handed it, ROM and nothing discard
it (log 8). -/
def store (a : Word) (v : Byte) (s : State) : State :=
  match s.kind a with
  | .ram => { s with mem := memWrite s.mem a.toNat v }
  | .rom => s
  | .io => { s with io := .write a v :: s.io }
  | .nothing => s

/-- The value of `MemRead(a, 2)`: the high byte at `a`, read first, then the low byte at `a + 1` (20_memory.md R64,
R65). -/
def peek16 (a : Word) (s : State) : Word := join (peek a s) (peek (a + 1) (touch a s))

/-- The state after `MemRead(a, 2)`. -/
def touch16 (a : Word) (s : State) : State := touch (a + 1) (touch a s)

/-- `MemWrite(a, 2, v)`: the high byte at `a` first (20_memory.md R64, R65). -/
def store16 (a v : Word) (s : State) : State := store (a + 1) (loByte v) (store a (hiByte v) s)

/-! ## Registers -/

/-- The accumulators (00_scope.md R10: `a`). -/
inductive Acc where
  | a
  | b
deriving DecidableEq, Repr

/-- The value of an accumulator. -/
def State.acc (s : State) : Acc → Byte
  | .a => s.a
  | .b => s.b

/-- Write an accumulator. -/
def State.setAcc (s : State) (r : Acc) (v : Byte) : State :=
  match r with
  | .a => { s with a := v }
  | .b => { s with b := v }

/-- The 16-bit registers an instruction can name: D, IX, IY, SP. -/
inductive Reg16 where
  | d
  | x
  | y
  | sp
deriving DecidableEq, Repr

/-- The value of a 16-bit register; D is A:B (10_state.md R22). -/
def State.reg16 (s : State) : Reg16 → Word
  | .d => join s.a s.b
  | .x => s.ix
  | .y => s.iy
  | .sp => s.sp

/-- Write a 16-bit register; writing D writes A and B (10_state.md R22). -/
def State.setReg16 (s : State) (r : Reg16) (v : Word) : State :=
  match r with
  | .d => { s with a := hiByte v, b := loByte v }
  | .x => { s with ix := v }
  | .y => { s with iy := v }
  | .sp => { s with sp := v }

/-- Use up one free value. -/
def State.drawn (s : State) : State := { s with draws := s.draws + 1 }

/-! ## The stack -/

/-- `Push(v)`: store at SP, then decrement SP (20_memory.md R70). -/
def push (v : Byte) (s : State) : State :=
  let t := store s.sp v s
  { t with sp := s.sp - 1 }

/-- The value of `Pull()`: the byte at SP + 1 (20_memory.md R70). -/
def pullValue (s : State) : Byte := peek (s.sp + 1) s

/-- The state after `Pull()`: SP incremented, the byte read. -/
def pulled (s : State) : State :=
  let t := touch (s.sp + 1) s
  { t with sp := s.sp + 1 }

/-- Push a 16-bit value: low byte first, so that the high byte lies at the lower address (20_memory.md R71). -/
def pushWord (v : Word) (s : State) : State := push (hiByte v) (push (loByte v) s)

/-- The value of pulling a 16-bit value: high byte first. -/
def pullWordValue (s : State) : Word := join (pullValue s) (pullValue (pulled s))

/-- The state after pulling a 16-bit value. -/
def pulledWord (s : State) : State := pulled (pulled s)

/-! ## Taking an exception and returning from one -/

/-- `vec` (60_exceptions.md R332): the address of a vector in the configured mode; in Test or Boot mode every vector
stands 0x4000 lower (D20, log 21). -/
def vec (mode : Mode) (v : Word) : Word :=
  match mode with
  | .normal => v
  | .testOrBoot => v - 0x4000#16

/-- The vector of the XIRQ interrupt (60_exceptions.md R339). -/
def xirqVector : Word := 0xFFF4#16

/-- The vector of SWI (60_exceptions.md R338). -/
def swiVector : Word := 0xFFF6#16

/-- The vector of the illegal-opcode trap (60_exceptions.md R340). -/
def illegalVector : Word := 0xFFF8#16

/-- The vector of a maskable source (60_exceptions.md R330, 20_memory.md R72). -/
def irqVector : IrqSource → Word
  | .irq => 0xFFF2#16
  | .realTime => 0xFFF0#16
  | .inputCapture1 => 0xFFEE#16
  | .inputCapture2 => 0xFFEC#16
  | .inputCapture3 => 0xFFEA#16
  | .outputCapture1 => 0xFFE8#16
  | .outputCapture2 => 0xFFE6#16
  | .outputCapture3 => 0xFFE4#16
  | .outputCapture4 => 0xFFE2#16
  | .outputCapture5 => 0xFFE0#16
  | .timerOverflow => 0xFFDE#16
  | .pulseAccumulatorOverflow => 0xFFDC#16
  | .pulseAccumulatorEdge => 0xFFDA#16
  | .spi => 0xFFD8#16
  | .sci => 0xFFD6#16

/-- The vector of a reset in Normal mode (70_reset_and_hazards.md R381). -/
def resetVector : ResetCause → Word
  | .powerOn => 0xFFFE#16
  | .pin => 0xFFFE#16
  | .clockMonitor => 0xFFFC#16
  | .cop => 0xFFFA#16

/-- Stack the nine bytes with `ret` as the program counter (60_exceptions.md R336): PCL, PCH, IYL, IYH, IXL, IXH, A,
B, CCR. -/
def stackFrame (ret : Word) (s : State) : State :=
  push s.ccr (push s.b (push s.a (pushWord s.ix (pushWord s.iy (pushWord ret s)))))

/-- The second half of an entry (60_exceptions.md R336), and the whole of a wake-up from WAI (R352(b)): set I, for XIRQ
X too, and load PC from the vector. -/
def enterVector (vector : Word) (setX : Bool) (s : State) : State :=
  let masked := { s with ccr := putFlag (if setX then putFlag s.ccr .x true else s.ccr) .i true }
  let addr := vec s.cfg.mode vector
  { touch16 addr masked with pc := peek16 addr masked, run := .running }

/-- `TakeInterrupt(vector, setX)` (60_exceptions.md R336) with `ret` as the return address: interrupts, SWI and the
illegal-opcode trap. `vector` is the Normal-mode address. -/
def takeInterrupt (vector : Word) (setX : Bool) (ret : Word) (s : State) : State :=
  enterVector vector setX (stackFrame ret s)

/-- RTI (44_jump_branch.md R304): pull CCR, B, A, IX, IY, PC; X can be cleared and not set. -/
def returnFromInterrupt (s : State) : State :=
  let s1 := { pulled s with ccr := loadCcr s.ccr (pullValue s) }
  let s2 := { pulled s1 with b := pullValue s1 }
  let s3 := { pulled s2 with a := pullValue s2 }
  let s4 := { pulledWord s3 with ix := pullWordValue s3 }
  let s5 := { pulledWord s4 with iy := pullWordValue s4 }
  { pulledWord s5 with pc := pullWordValue s5 }

/-- The illegal-opcode trap (60_exceptions.md R340) on an encoding that begins at `start`, after its fetch: no effect of
the bytes, the return address `ILLOP_RETURN`, then the entry through 0xFFF8. -/
def illegalOpcodeTrap (start : Word) (s : State) : State :=
  let ret :=
    match s.cfg.illopReturn with
    | .firstByte => start
    | .afterOpcode => s.pc
  takeInterrupt illegalVector false ret s

/-- RAM without a value in any byte; ROM keeps its content (70_reset_and_hazards.md R380, D22). -/
def forgetRam (s : State) : State :=
  { s with
    mem := s.mem.filter fun cell => !(s.kind (BitVec.ofNat 16 cell.1) == .ram)
    generation := s.generation + 1 }

/-- The reset sequence (70_reset_and_hazards.md R380, 10_state.md R45). A, B, IX, IY, SP and H, N, Z, V, C take free
values; RAM loses its content, at power-on always, otherwise unless the launch premise says it survives (log 6). PC is
loaded from the vector of the cause. Nothing is pushed. -/
def resetSequence (cause : ResetCause) (s : State) : State :=
  let kept := if s.cfg.ramRetained && cause != .powerOn then s else forgetRam s
  let k := s.draws
  let cleared : State :=
    { kept with
      a := (Config.draw k).setWidth 8
      b := (Config.draw (k + 1)).setWidth 8
      ix := Config.draw (k + 2)
      iy := Config.draw (k + 3)
      sp := Config.draw (k + 4)
      ccr := 0xD0#8 ||| ((Config.draw (k + 5)).setWidth 8 &&& 0x2F#8)
      draws := k + 6
      run := .running
      lastReset := cause
      lateClear := false
      lines := { s.lines with reset := none } }
  let addr := vec cleared.cfg.mode (resetVector cleared.lastReset)
  { touch16 addr cleared with pc := peek16 addr cleared }

/-! ## The instruction boundary -/

/-- What happens at a boundary (60_exceptions.md R334, R352). -/
inductive Event where
  /-- A reset is taken. -/
  | reset (cause : ResetCause)
  /-- An interrupt is taken with full stacking. -/
  | interrupt (vector : Word) (setX : Bool)
  /-- An interrupt ends WAI: no second stacking (R352(b)). -/
  | wake (vector : Word) (setX : Bool)
  /-- XIRQ with X = 1 ends STOP: no interrupt is taken (R352(c)). -/
  | resume
  /-- The CPU stays Waiting or Stopped. -/
  | idle
  /-- The instruction at PC is executed. -/
  | execute
deriving DecidableEq, Repr

/-- The lines at this boundary: the next entry of the script, or the present lines when there is none (log 10). -/
def sample (s : State) : State :=
  match s.script with
  | [] => s
  | l :: rest => { s with lines := l, script := rest }

/-- Which event a boundary brings, once the lines are sampled: 60_exceptions.md R334 for Running, R352(b) for Waiting,
R352(c) for Stopped, in the order those rules list the cases. -/
def recognise (s : State) : Event :=
  match s.lines.reset with
  | some cause => .reset cause
  | none =>
    match s.run with
    | .running =>
      if s.lines.xirq && !s.flag .x then .interrupt xirqVector true
      else if s.flag .i || (s.lateClear && s.lines.holdOff) then .execute
      else
        match s.lines.maskable with
        | [] => .execute
        | source :: _ => .interrupt (irqVector source) false
    | .waiting =>
      if s.lines.xirq && !s.flag .x then .wake xirqVector true
      else if s.flag .i then .idle
      else
        match s.lines.maskable with
        | [] => .idle
        | source :: _ => .wake (irqVector source) false
    | .stopped =>
      if s.lines.xirq && !s.flag .x then .interrupt xirqVector true
      else if s.lines.xirq then .resume
      else if !s.flag .i && s.lines.maskable.contains .irq then .interrupt (irqVector .irq) false
      else .idle

/-- The end of STOP without an interrupt: execution continues at PC (60_exceptions.md R352(c)). -/
def resumeRunning (s : State) : State := { s with run := .running }

/-! ## Fetching an instruction -/

/-- The bytes of `n` successive reads from `a` on (20_memory.md R68: ascending addresses, wrapping). -/
def readBytes : Nat → Word → State → List Byte
  | 0, _, _ => []
  | n + 1, a, s => peek a s :: readBytes n (a + 1) (touch a s)

/-- The state after `n` successive reads from `a` on. -/
def touchBytes : Nat → Word → State → State
  | 0, _, s => s
  | n + 1, a, s => touchBytes n (a + 1) (touch a s)

/-- How many bytes the fetch at PC reads (30_encoding.md R95, R96): a prebyte, the opcode byte, and the operand bytes
of the row of `OPCODE_MAP` they select; no operand bytes for an illegal code (60_exceptions.md R340). -/
def fetchLength (s : State) : Nat :=
  let m := s.cfg.opcodeMap
  let first := peek s.pc s
  if m.isPrebyte first then 2 + operandCount m (some first) (peek (s.pc + 1) (touch s.pc s))
  else 1 + operandCount m none first

/-- The bytes the fetch at PC reads. -/
def fetchBytes (s : State) : List Byte := readBytes (fetchLength s) s.pc s

/-- The state after the fetch at PC: the bytes read, and PC at `pc_next`, the address after the last of them, which is
what `PC` means while the instruction executes (10_state.md R27, 30_encoding.md R95). An instruction that is no control
transfer leaves it there (40_arithmetic.md R135(c)). -/
def fetched (s : State) : State :=
  { touchBytes (fetchLength s) s.pc s with pc := s.pc + BitVec.ofNat 16 (fetchLength s) }

/-- A state with bytes placed in memory from an address on, from outside the machine. -/
def placeBytes : List Byte → Word → State → State
  | [], _, s => s
  | v :: rest, a, s => placeBytes rest (a + 1) { s with mem := memWrite s.mem a.toNat v }

end Sys2Proof.Machine
end

