-- ==== Sys2Proof/Machine/Operands.lean ====
section
/-!
DEFINITION. Every operand form (30_encoding.md R97 to R106): effective addresses, operand values, and the shapes of
instruction that several mnemonics share, each written once.
-/

namespace Sys2Proof.Machine

/-- The effective address (30_encoding.md R100 to R103), from the index register as it stands before the instruction.
The sum wraps modulo 65536. -/
def effAddr (m : Mem) (s : State) : Word :=
  match m with
  | .dir dd => zext16 dd
  | .ext hhll => hhll
  | .indx ff => s.ix + zext16 ff
  | .indy ff => s.iy + zext16 ff

/-- The 8-bit operand value M: the immediate, or `MemRead(EA, 1)` (40_arithmetic.md R135(a)). -/
def operand8 (op : Operand8) (s : State) : Byte :=
  match op with
  | .imm ii => ii
  | .mem m => peek (effAddr m s) s

/-- The state after an 8-bit operand is read. -/
def afterOperand8 (op : Operand8) (s : State) : State :=
  match op with
  | .imm _ => s
  | .mem m => touch (effAddr m s) s

/-- The 16-bit operand value M: the immediate, or `MemRead(EA, 2)` (40_arithmetic.md R135(a)). -/
def operand16 (op : Operand16) (s : State) : Word :=
  match op with
  | .imm jjkk => jjkk
  | .mem m => peek16 (effAddr m s) s

/-- The state after a 16-bit operand is read. -/
def afterOperand16 (op : Operand16) (s : State) : State :=
  match op with
  | .imm _ => s
  | .mem m => touch16 (effAddr m s) s

/-! ## Shapes of instruction -/

/-- Accumulator and operand in, accumulator and condition codes out. -/
def accOp (r : Acc) (f : Byte → Byte → Byte → Res8) (op : Operand8) (s : State) : State :=
  let u := f (s.acc r) (operand8 op s) s.ccr
  { (afterOperand8 op s).setAcc r u.val with ccr := u.ccr }

/-- Accumulator and operand in, condition codes out. -/
def accTest (r : Acc) (f : Byte → Byte → Byte → Byte) (op : Operand8) (s : State) : State :=
  { afterOperand8 op s with ccr := f (s.acc r) (operand8 op s) s.ccr }

/-- A one-operand operation on an accumulator. -/
def accUnary (r : Acc) (f : Byte → Byte → Res8) (s : State) : State :=
  let u := f (s.acc r) s.ccr
  { s.setAcc r u.val with ccr := u.ccr }

/-- A one-operand operation on a memory byte: one read of EA, the condition codes, then one write of EA (20_memory.md
R69, 40_arithmetic.md R135(b)). -/
def readModifyWrite (m : Mem) (f : Byte → Byte → Res8) (s : State) : State :=
  let ea := effAddr m s
  let u := f (peek ea s) s.ccr
  store ea u.val { touch ea s with ccr := u.ccr }

/-- 16-bit register and operand in, register and condition codes out. -/
def regOp (r : Reg16) (f : Word → Word → Byte → Res16) (op : Operand16) (s : State) : State :=
  let u := f (s.reg16 r) (operand16 op s) s.ccr
  { (afterOperand16 op s).setReg16 r u.val with ccr := u.ccr }

/-- Compare a 16-bit register with an operand: condition codes only (40_arithmetic.md R133). -/
def regCompare (r : Reg16) (op : Operand16) (s : State) : State :=
  { afterOperand16 op s with ccr := (sub16 (s.reg16 r) (operand16 op s) s.ccr).ccr }

/-- Load an accumulator: NZ8 of the value (43_data_transfer.md R263, R264). -/
def accLoad (r : Acc) (op : Operand8) (s : State) : State :=
  { (afterOperand8 op s).setAcc r (operand8 op s) with ccr := nz8 (operand8 op s) s.ccr }

/-- Store an accumulator: NZ8 of the value stored (43_data_transfer.md R270, R271). -/
def accStore (r : Acc) (m : Mem) (s : State) : State :=
  store (effAddr m s) (s.acc r) { s with ccr := nz8 (s.acc r) s.ccr }

/-- Load a 16-bit register: NZ16 of the value (42_index_stack.md R230 to R232, 43_data_transfer.md R265). -/
def regLoad (r : Reg16) (op : Operand16) (s : State) : State :=
  { (afterOperand16 op s).setReg16 r (operand16 op s) with ccr := nz16 (operand16 op s) s.ccr }

/-- Store a 16-bit register: NZ16 of the value stored (42_index_stack.md R237 to R239, 43_data_transfer.md R272). -/
def regStore (r : Reg16) (m : Mem) (s : State) : State :=
  store16 (effAddr m s) (s.reg16 r) { s with ccr := nz16 (s.reg16 r) s.ccr }

/-- Add a signed amount to an index register and set Z alone (42_index_stack.md R225, R226, R228, R229). -/
def indexStep (r : Reg16) (amount : Word) (s : State) : State :=
  let v := s.reg16 r + amount
  { s.setReg16 r v with ccr := putZ s.ccr (v == 0#16) }

/-- Push a 16-bit register (42_index_stack.md R233, R234). -/
def pushReg (r : Reg16) (s : State) : State := pushWord (s.reg16 r) s

/-- Pull a 16-bit register (42_index_stack.md R235, R236). -/
def pullReg (r : Reg16) (s : State) : State := (pulledWord s).setReg16 r (pullWordValue s)

/-- Exchange D with an index register (42_index_stack.md R244, R245). -/
def exchangeD (r : Reg16) (s : State) : State := (s.setReg16 .d (s.reg16 r)).setReg16 r (s.reg16 .d)

/-- A divide of D by IX with its quotient in IX and its remainder in D (40_arithmetic.md R150, R151). The value it may
leave open is drawn each time. -/
def divideD (f : Word → Word → Word → Byte → DivRes) (s : State) : State :=
  let u := f (s.reg16 .d) s.ix (Config.draw s.draws) s.ccr
  { s.drawn with a := hiByte u.remainder, b := loByte u.remainder, ix := u.quotient, ccr := u.ccr }

/-- The target of a relative branch, from `pc_next` (44_jump_branch.md R280, 30_encoding.md R98). -/
def branchTarget (rr : Byte) (s : State) : Word := s.pc + sext16 rr

/-- Branch or go on (44_jump_branch.md R280). -/
def branchIf (taken : Bool) (rr : Byte) (s : State) : State :=
  { s with pc := if taken then branchTarget rr s else s.pc }

/-- Call: the target is computed first, then `pc_next` is pushed (44_jump_branch.md R300, R302). -/
def callTo (target : Word) (s : State) : State :=
  { pushWord s.pc s with pc := target }

end Sys2Proof.Machine
end

