-- ==== Sys2Proof/Machine/Arithmetic.lean ====
section
/-!
DEFINITION. The arithmetic instructions (40_arithmetic.md R136 to R167): one meaning per instruction, written over
the shared operations of Ops, Operands and Flags.
-/

namespace Sys2Proof.Machine

/-- ABA, 40_arithmetic.md R136: add accumulator B to accumulator A. -/
def execAba (s : State) : Out :=
  .next (accOp .a (fun x y c => add8 x y false c) (.imm s.b) s)

/-- ADCA, 40_arithmetic.md R137: add with carry to accumulator A. -/
def execAdca (op : Operand8) (s : State) : Out :=
  .next (accOp .a (fun x y c => add8 x y (getFlag c .c) c) op s)

/-- ADCB, 40_arithmetic.md R138: add with carry to accumulator B. -/
def execAdcb (op : Operand8) (s : State) : Out :=
  .next (accOp .b (fun x y c => add8 x y (getFlag c .c) c) op s)

/-- ADDA, 40_arithmetic.md R139: add to accumulator A. -/
def execAdda (op : Operand8) (s : State) : Out :=
  .next (accOp .a (fun x y c => add8 x y false c) op s)

/-- ADDB, 40_arithmetic.md R140: add to accumulator B. -/
def execAddb (op : Operand8) (s : State) : Out :=
  .next (accOp .b (fun x y c => add8 x y false c) op s)

/-- ADDD, 40_arithmetic.md R141: add 16 bits to accumulator D. -/
def execAddd (op : Operand16) (s : State) : Out :=
  .next (regOp .d add16 op s)

/-- CBA, 40_arithmetic.md R142: compare accumulator A with accumulator B. -/
def execCba (s : State) : Out :=
  .next { s with ccr := (sub8 s.a s.b false s.ccr).ccr }

/-- CMPA, 40_arithmetic.md R143: compare accumulator A with an operand. -/
def execCmpa (op : Operand8) (s : State) : Out :=
  .next (accTest .a (fun x y c => (sub8 x y false c).ccr) op s)

/-- CMPB, 40_arithmetic.md R144: compare accumulator B with an operand. -/
def execCmpb (op : Operand8) (s : State) : Out :=
  .next (accTest .b (fun x y c => (sub8 x y false c).ccr) op s)

/-- CPD, 40_arithmetic.md R145: compare accumulator D with a 16-bit operand. -/
def execCpd (op : Operand16) (s : State) : Out :=
  .next (regCompare .d op s)

/-- DAA, 40_arithmetic.md R146: decimal adjust accumulator A after a BCD addition. V is a free value (log 17). -/
def execDaa (s : State) : Out :=
  .next (accUnary .a (fun x c => decimalAdjust x c ((Config.draw s.draws).getLsbD 0)) s.drawn)

/-- DEC, 40_arithmetic.md R147: decrement a memory byte. -/
def execDec (m : Mem) (s : State) : Out :=
  .next (readModifyWrite m decrement8 s)

/-- DECA, 40_arithmetic.md R148: decrement accumulator A. -/
def execDeca (s : State) : Out :=
  .next (accUnary .a decrement8 s)

/-- DECB, 40_arithmetic.md R149: decrement accumulator B. -/
def execDecb (s : State) : Out :=
  .next (accUnary .b decrement8 s)

/-- FDIV, 40_arithmetic.md R150: unsigned fractional divide, D by IX, 16-bit fraction. D is a free value where the quotient does not fit (log 18). -/
def execFdiv (s : State) : Out :=
  .next (divideD fractionalDivide s)

/-- IDIV, 40_arithmetic.md R151: unsigned integer divide, D by IX. D is a free value on division by zero (log 18). -/
def execIdiv (s : State) : Out :=
  .next (divideD integerDivide s)

/-- INC, 40_arithmetic.md R152: increment a memory byte. -/
def execInc (m : Mem) (s : State) : Out :=
  .next (readModifyWrite m increment8 s)

/-- INCA, 40_arithmetic.md R153: increment accumulator A. -/
def execInca (s : State) : Out :=
  .next (accUnary .a increment8 s)

/-- INCB, 40_arithmetic.md R154: increment accumulator B. -/
def execIncb (s : State) : Out :=
  .next (accUnary .b increment8 s)

/-- MUL, 40_arithmetic.md R155: unsigned multiply, A by B into D. C is bit 7 of the product (log 16). -/
def execMul (s : State) : Out :=
  let u := multiply s.a s.b s.ccr
  .next { s.setReg16 .d u.val with ccr := u.ccr }

/-- NEG, 40_arithmetic.md R156: negate (two's complement) a memory byte. -/
def execNeg (m : Mem) (s : State) : Out :=
  .next (readModifyWrite m negate8 s)

/-- NEGA, 40_arithmetic.md R157: negate accumulator A. -/
def execNega (s : State) : Out :=
  .next (accUnary .a negate8 s)

/-- NEGB, 40_arithmetic.md R158: negate accumulator B. -/
def execNegb (s : State) : Out :=
  .next (accUnary .b negate8 s)

/-- SBA, 40_arithmetic.md R159: subtract accumulator B from accumulator A. -/
def execSba (s : State) : Out :=
  .next (accOp .a (fun x y c => sub8 x y false c) (.imm s.b) s)

/-- SBCA, 40_arithmetic.md R160: subtract with carry (borrow) from accumulator A. -/
def execSbca (op : Operand8) (s : State) : Out :=
  .next (accOp .a (fun x y c => sub8 x y (getFlag c .c) c) op s)

/-- SBCB, 40_arithmetic.md R161: subtract with carry (borrow) from accumulator B. -/
def execSbcb (op : Operand8) (s : State) : Out :=
  .next (accOp .b (fun x y c => sub8 x y (getFlag c .c) c) op s)

/-- SUBA, 40_arithmetic.md R162: subtract from accumulator A. -/
def execSuba (op : Operand8) (s : State) : Out :=
  .next (accOp .a (fun x y c => sub8 x y false c) op s)

/-- SUBB, 40_arithmetic.md R163: subtract from accumulator B. -/
def execSubb (op : Operand8) (s : State) : Out :=
  .next (accOp .b (fun x y c => sub8 x y false c) op s)

/-- SUBD, 40_arithmetic.md R164: subtract 16 bits from accumulator D. -/
def execSubd (op : Operand16) (s : State) : Out :=
  .next (regOp .d sub16 op s)

/-- TST, 40_arithmetic.md R165: test a memory byte for zero or minus. -/
def execTst (m : Mem) (s : State) : Out :=
  .next { touch (effAddr m s) s with ccr := test8 (peek (effAddr m s) s) s.ccr }

/-- TSTA, 40_arithmetic.md R166: test accumulator A for zero or minus. -/
def execTsta (s : State) : Out :=
  .next { s with ccr := test8 s.a s.ccr }

/-- TSTB, 40_arithmetic.md R167: test accumulator B for zero or minus. -/
def execTstb (s : State) : Out :=
  .next { s with ccr := test8 s.b s.ccr }

end Sys2Proof.Machine
end

