-- ==== Sys2Proof/Machine/Bitwise.lean ====
section
/-!
DEFINITION. The bitwise, shift, rotate and bit instructions (41_bitwise.md R181 to R210): one meaning per instruction, written over
the shared operations of Ops, Operands and Flags.
-/

namespace Sys2Proof.Machine

/-- ANDA, 41_bitwise.md R181: bitwise and into accumulator A. -/
def execAnda (op : Operand8) (s : State) : Out :=
  .next (accOp .a (fun x y c => ⟨x &&& y, nz8 (x &&& y) c⟩) op s)

/-- ANDB, 41_bitwise.md R182: bitwise and into accumulator B. -/
def execAndb (op : Operand8) (s : State) : Out :=
  .next (accOp .b (fun x y c => ⟨x &&& y, nz8 (x &&& y) c⟩) op s)

/-- ASR, 41_bitwise.md R183: arithmetic shift right of a memory byte. -/
def execAsr (m : Mem) (s : State) : Out :=
  .next (readModifyWrite m arithShiftRight8 s)

/-- ASRA, 41_bitwise.md R184: arithmetic shift right of accumulator A. -/
def execAsra (s : State) : Out :=
  .next (accUnary .a arithShiftRight8 s)

/-- ASRB, 41_bitwise.md R185: arithmetic shift right of accumulator B. -/
def execAsrb (s : State) : Out :=
  .next (accUnary .b arithShiftRight8 s)

/-- BCLR, 41_bitwise.md R186: clear the bits of a memory byte selected by a mask. -/
def execBclr (m : Mem) (mm : Byte) (s : State) : Out :=
  .next (readModifyWrite m (bitClear8 mm) s)

/-- BITA, 41_bitwise.md R187: bit test: AND accumulator A with an operand, flags only. -/
def execBita (op : Operand8) (s : State) : Out :=
  .next (accTest .a (fun x y c => nz8 (x &&& y) c) op s)

/-- BITB, 41_bitwise.md R188: bit test: AND accumulator B with an operand, flags only. -/
def execBitb (op : Operand8) (s : State) : Out :=
  .next (accTest .b (fun x y c => nz8 (x &&& y) c) op s)

/-- BSET, 41_bitwise.md R189: set the bits of a memory byte selected by a mask. -/
def execBset (m : Mem) (mm : Byte) (s : State) : Out :=
  .next (readModifyWrite m (bitSet8 mm) s)

/-- COM, 41_bitwise.md R190: one's complement of a memory byte. -/
def execCom (m : Mem) (s : State) : Out :=
  .next (readModifyWrite m complement8 s)

/-- COMA, 41_bitwise.md R191: one's complement of accumulator A. -/
def execComa (s : State) : Out :=
  .next (accUnary .a complement8 s)

/-- COMB, 41_bitwise.md R192: one's complement of accumulator B. -/
def execComb (s : State) : Out :=
  .next (accUnary .b complement8 s)

/-- EORA, 41_bitwise.md R193: bitwise exclusive or into accumulator A. -/
def execEora (op : Operand8) (s : State) : Out :=
  .next (accOp .a (fun x y c => ⟨x ^^^ y, nz8 (x ^^^ y) c⟩) op s)

/-- EORB, 41_bitwise.md R194: bitwise exclusive or into accumulator B. -/
def execEorb (op : Operand8) (s : State) : Out :=
  .next (accOp .b (fun x y c => ⟨x ^^^ y, nz8 (x ^^^ y) c⟩) op s)

/-- LSL, 41_bitwise.md R195: logical shift left of a memory byte (also written ASL). -/
def execLsl (m : Mem) (s : State) : Out :=
  .next (readModifyWrite m shiftLeft8 s)

/-- LSLA, 41_bitwise.md R196: logical shift left of accumulator A (also written ASLA). -/
def execLsla (s : State) : Out :=
  .next (accUnary .a shiftLeft8 s)

/-- LSLB, 41_bitwise.md R197: logical shift left of accumulator B (also written ASLB). -/
def execLslb (s : State) : Out :=
  .next (accUnary .b shiftLeft8 s)

/-- LSLD, 41_bitwise.md R198: logical shift left of accumulator D (also written ASLD). -/
def execLsld (s : State) : Out :=
  let u := shiftLeft16 (s.reg16 .d) s.ccr
  .next { s.setReg16 .d u.val with ccr := u.ccr }

/-- LSR, 41_bitwise.md R199: logical shift right of a memory byte. -/
def execLsr (m : Mem) (s : State) : Out :=
  .next (readModifyWrite m shiftRight8 s)

/-- LSRA, 41_bitwise.md R200: logical shift right of accumulator A. -/
def execLsra (s : State) : Out :=
  .next (accUnary .a shiftRight8 s)

/-- LSRB, 41_bitwise.md R201: logical shift right of accumulator B. -/
def execLsrb (s : State) : Out :=
  .next (accUnary .b shiftRight8 s)

/-- LSRD, 41_bitwise.md R202: logical shift right of accumulator D. -/
def execLsrd (s : State) : Out :=
  let u := shiftRight16 (s.reg16 .d) s.ccr
  .next { s.setReg16 .d u.val with ccr := u.ccr }

/-- ORAA, 41_bitwise.md R203: bitwise inclusive or into accumulator A. -/
def execOraa (op : Operand8) (s : State) : Out :=
  .next (accOp .a (fun x y c => ⟨x ||| y, nz8 (x ||| y) c⟩) op s)

/-- ORAB, 41_bitwise.md R204: bitwise inclusive or into accumulator B. -/
def execOrab (op : Operand8) (s : State) : Out :=
  .next (accOp .b (fun x y c => ⟨x ||| y, nz8 (x ||| y) c⟩) op s)

/-- ROL, 41_bitwise.md R205: rotate a memory byte left through carry. -/
def execRol (m : Mem) (s : State) : Out :=
  .next (readModifyWrite m rotateLeft8 s)

/-- ROLA, 41_bitwise.md R206: rotate accumulator A left through carry. -/
def execRola (s : State) : Out :=
  .next (accUnary .a rotateLeft8 s)

/-- ROLB, 41_bitwise.md R207: rotate accumulator B left through carry. -/
def execRolb (s : State) : Out :=
  .next (accUnary .b rotateLeft8 s)

/-- ROR, 41_bitwise.md R208: rotate a memory byte right through carry. -/
def execRor (m : Mem) (s : State) : Out :=
  .next (readModifyWrite m rotateRight8 s)

/-- RORA, 41_bitwise.md R209: rotate accumulator A right through carry. -/
def execRora (s : State) : Out :=
  .next (accUnary .a rotateRight8 s)

/-- RORB, 41_bitwise.md R210: rotate accumulator B right through carry. -/
def execRorb (s : State) : Out :=
  .next (accUnary .b rotateRight8 s)

end Sys2Proof.Machine
end

