-- ==== Sys2Proof/Machine/ConditionCodes.lean ====
section
/-!
DEFINITION. The condition code register instructions (45_ccr.md R320 to R327): one meaning per instruction, written over
the shared operations of Ops, Operands and Flags.
-/

namespace Sys2Proof.Machine

/-- CLC, 45_ccr.md R320: clear the carry flag. -/
def execClc (s : State) : Out :=
  .next { s with ccr := putFlag s.ccr .c false }

/-- CLI, 45_ccr.md R321: clear the interrupt mask I (enable maskable interrupts). A CLI that takes I from 1 to 0 is remembered for the next boundary (60_exceptions.md R334; log 12). -/
def execCli (s : State) : Out :=
  .next { s with ccr := putFlag s.ccr .i false, lateClear := s.flag .i }

/-- CLV, 45_ccr.md R322: clear the overflow flag. -/
def execClv (s : State) : Out :=
  .next { s with ccr := putFlag s.ccr .v false }

/-- SEC, 45_ccr.md R323: set the carry flag. -/
def execSec (s : State) : Out :=
  .next { s with ccr := putFlag s.ccr .c true }

/-- SEI, 45_ccr.md R324: set the interrupt mask I (disable maskable interrupts). -/
def execSei (s : State) : Out :=
  .next { s with ccr := putFlag s.ccr .i true }

/-- SEV, 45_ccr.md R325: set the overflow flag. -/
def execSev (s : State) : Out :=
  .next { s with ccr := putFlag s.ccr .v true }

/-- TAP, 45_ccr.md R326: transfer accumulator A to the condition code register. A TAP that takes I from 1 to 0 is remembered for the next boundary (60_exceptions.md R334; log 12). -/
def execTap (s : State) : Out :=
  .next { s with ccr := loadCcr s.ccr s.a, lateClear := s.flag .i && !getFlag s.a .i }

/-- TPA, 45_ccr.md R327: transfer the condition code register to accumulator A. -/
def execTpa (s : State) : Out :=
  .next { s with a := s.ccr }

end Sys2Proof.Machine
end

