-- ==== Sys2Proof/Machine/IndexStack.lean ====
section
/-!
DEFINITION. The index register and stack pointer instructions (42_index_stack.md R220 to R245): one meaning per instruction, written over
the shared operations of Ops, Operands and Flags.
-/

namespace Sys2Proof.Machine

/-- ABX, 42_index_stack.md R220: add accumulator B, zero extended, to IX. -/
def execAbx (s : State) : Out :=
  .next { s with ix := s.ix + zext16 s.b }

/-- ABY, 42_index_stack.md R221: add accumulator B, zero extended, to IY. -/
def execAby (s : State) : Out :=
  .next { s with iy := s.iy + zext16 s.b }

/-- CPX, 42_index_stack.md R222: compare IX with a 16-bit operand. -/
def execCpx (op : Operand16) (s : State) : Out :=
  .next (regCompare .x op s)

/-- CPY, 42_index_stack.md R223: compare IY with a 16-bit operand. -/
def execCpy (op : Operand16) (s : State) : Out :=
  .next (regCompare .y op s)

/-- DES, 42_index_stack.md R224: decrement the stack pointer. -/
def execDes (s : State) : Out :=
  .next { s with sp := s.sp - 1 }

/-- DEX, 42_index_stack.md R225: decrement IX. -/
def execDex (s : State) : Out :=
  .next (indexStep .x (-1) s)

/-- DEY, 42_index_stack.md R226: decrement IY. -/
def execDey (s : State) : Out :=
  .next (indexStep .y (-1) s)

/-- INS, 42_index_stack.md R227: increment the stack pointer. -/
def execIns (s : State) : Out :=
  .next { s with sp := s.sp + 1 }

/-- INX, 42_index_stack.md R228: increment IX. -/
def execInx (s : State) : Out :=
  .next (indexStep .x 1 s)

/-- INY, 42_index_stack.md R229: increment IY. -/
def execIny (s : State) : Out :=
  .next (indexStep .y 1 s)

/-- LDS, 42_index_stack.md R230: load the stack pointer. -/
def execLds (op : Operand16) (s : State) : Out :=
  .next (regLoad .sp op s)

/-- LDX, 42_index_stack.md R231: load IX. -/
def execLdx (op : Operand16) (s : State) : Out :=
  .next (regLoad .x op s)

/-- LDY, 42_index_stack.md R232: load IY. -/
def execLdy (op : Operand16) (s : State) : Out :=
  .next (regLoad .y op s)

/-- PSHX, 42_index_stack.md R233: push IX onto the stack. -/
def execPshx (s : State) : Out :=
  .next (pushReg .x s)

/-- PSHY, 42_index_stack.md R234: push IY onto the stack. -/
def execPshy (s : State) : Out :=
  .next (pushReg .y s)

/-- PULX, 42_index_stack.md R235: pull IX from the stack. -/
def execPulx (s : State) : Out :=
  .next (pullReg .x s)

/-- PULY, 42_index_stack.md R236: pull IY from the stack. -/
def execPuly (s : State) : Out :=
  .next (pullReg .y s)

/-- STS, 42_index_stack.md R237: store the stack pointer. -/
def execSts (m : Mem) (s : State) : Out :=
  .next (regStore .sp m s)

/-- STX, 42_index_stack.md R238: store IX. -/
def execStx (m : Mem) (s : State) : Out :=
  .next (regStore .x m s)

/-- STY, 42_index_stack.md R239: store IY. -/
def execSty (m : Mem) (s : State) : Out :=
  .next (regStore .y m s)

/-- TSX, 42_index_stack.md R240: transfer the stack pointer plus one to IX. -/
def execTsx (s : State) : Out :=
  .next { s with ix := s.sp + 1 }

/-- TSY, 42_index_stack.md R241: transfer the stack pointer plus one to IY. -/
def execTsy (s : State) : Out :=
  .next { s with iy := s.sp + 1 }

/-- TXS, 42_index_stack.md R242: transfer IX minus one to the stack pointer. -/
def execTxs (s : State) : Out :=
  .next { s with sp := s.ix - 1 }

/-- TYS, 42_index_stack.md R243: transfer IY minus one to the stack pointer. -/
def execTys (s : State) : Out :=
  .next { s with sp := s.iy - 1 }

/-- XGDX, 42_index_stack.md R244: exchange accumulator D with IX. Both moves use the old values. -/
def execXgdx (s : State) : Out :=
  .next (exchangeD .x s)

/-- XGDY, 42_index_stack.md R245: exchange accumulator D with IY. Both moves use the old values. -/
def execXgdy (s : State) : Out :=
  .next (exchangeD .y s)

end Sys2Proof.Machine
end

