-- ==== Sys2Proof/Machine/JumpBranch.lean ====
section
/-!
DEFINITION. The jump, branch, subroutine and interrupt-control instructions (44_jump_branch.md R282 to R308): one meaning per instruction, written over
the shared operations of Ops, Operands and Flags.
-/

namespace Sys2Proof.Machine

/-- BRA, 44_jump_branch.md R282: branch always. -/
def execBra (rr : Byte) (s : State) : Out :=
  .next (branchIf (condHolds .always s.ccr) rr s)

/-- BRN, 44_jump_branch.md R283: branch never. -/
def execBrn (rr : Byte) (s : State) : Out :=
  .next (branchIf (condHolds .never s.ccr) rr s)

/-- BHI, 44_jump_branch.md R284: branch if higher (unsigned). -/
def execBhi (rr : Byte) (s : State) : Out :=
  .next (branchIf (condHolds .higher s.ccr) rr s)

/-- BLS, 44_jump_branch.md R285: branch if lower or same (unsigned). -/
def execBls (rr : Byte) (s : State) : Out :=
  .next (branchIf (condHolds .lowerSame s.ccr) rr s)

/-- BCC, 44_jump_branch.md R286: branch if carry clear; also written BHS, branch if higher or same (unsigned). -/
def execBcc (rr : Byte) (s : State) : Out :=
  .next (branchIf (condHolds .carryClear s.ccr) rr s)

/-- BCS, 44_jump_branch.md R287: branch if carry set; also written BLO, branch if lower (unsigned). -/
def execBcs (rr : Byte) (s : State) : Out :=
  .next (branchIf (condHolds .carrySet s.ccr) rr s)

/-- BNE, 44_jump_branch.md R288: branch if not equal (not zero). -/
def execBne (rr : Byte) (s : State) : Out :=
  .next (branchIf (condHolds .notEqual s.ccr) rr s)

/-- BEQ, 44_jump_branch.md R289: branch if equal (zero). -/
def execBeq (rr : Byte) (s : State) : Out :=
  .next (branchIf (condHolds .equal s.ccr) rr s)

/-- BVC, 44_jump_branch.md R290: branch if overflow clear. -/
def execBvc (rr : Byte) (s : State) : Out :=
  .next (branchIf (condHolds .overflowClear s.ccr) rr s)

/-- BVS, 44_jump_branch.md R291: branch if overflow set. -/
def execBvs (rr : Byte) (s : State) : Out :=
  .next (branchIf (condHolds .overflowSet s.ccr) rr s)

/-- BPL, 44_jump_branch.md R292: branch if plus. -/
def execBpl (rr : Byte) (s : State) : Out :=
  .next (branchIf (condHolds .plus s.ccr) rr s)

/-- BMI, 44_jump_branch.md R293: branch if minus. -/
def execBmi (rr : Byte) (s : State) : Out :=
  .next (branchIf (condHolds .minus s.ccr) rr s)

/-- BGE, 44_jump_branch.md R294: branch if greater than or equal (signed). -/
def execBge (rr : Byte) (s : State) : Out :=
  .next (branchIf (condHolds .greaterEqual s.ccr) rr s)

/-- BLT, 44_jump_branch.md R295: branch if less than (signed). -/
def execBlt (rr : Byte) (s : State) : Out :=
  .next (branchIf (condHolds .lessThan s.ccr) rr s)

/-- BGT, 44_jump_branch.md R296: branch if greater than (signed). -/
def execBgt (rr : Byte) (s : State) : Out :=
  .next (branchIf (condHolds .greater s.ccr) rr s)

/-- BLE, 44_jump_branch.md R297: branch if less than or equal (signed). -/
def execBle (rr : Byte) (s : State) : Out :=
  .next (branchIf (condHolds .lessEqual s.ccr) rr s)

/-- BRCLR, 44_jump_branch.md R298: branch if all the bits selected by a mask are clear. -/
def execBrclr (m : Mem) (mm rr : Byte) (s : State) : Out :=
  .next (branchIf (peek (effAddr m s) s &&& mm == 0#8) rr (touch (effAddr m s) s))

/-- BRSET, 44_jump_branch.md R299: branch if all the bits selected by a mask are set. -/
def execBrset (m : Mem) (mm rr : Byte) (s : State) : Out :=
  .next (branchIf (peek (effAddr m s) s &&& mm == mm) rr (touch (effAddr m s) s))

/-- BSR, 44_jump_branch.md R300: branch to subroutine. -/
def execBsr (rr : Byte) (s : State) : Out :=
  .next (callTo (branchTarget rr s) s)

/-- JMP, 44_jump_branch.md R301: jump. The operand is the address; no memory is read. -/
def execJmp (m : Mem) (s : State) : Out :=
  .next { s with pc := effAddr m s }

/-- JSR, 44_jump_branch.md R302: jump to subroutine. EA is computed before the pushes. -/
def execJsr (m : Mem) (s : State) : Out :=
  .next (callTo (effAddr m s) s)

/-- NOP, 44_jump_branch.md R303: no operation. -/
def execNop (s : State) : Out :=
  .next s

/-- RTI, 44_jump_branch.md R304: return from interrupt. X can be cleared and not set. -/
def execRti (s : State) : Out :=
  .next (returnFromInterrupt s)

/-- RTS, 44_jump_branch.md R305: return from subroutine. -/
def execRts (s : State) : Out :=
  .next { pulledWord s with pc := pullWordValue s }

/-- STOP, 44_jump_branch.md R306: stop the clocks (low-power stop) unless disabled by S. With S = 1 a no-operation; with S = 0 the CPU stops with PC at the next instruction. -/
def execStop (s : State) : Out :=
  .next (if s.flag .s then s else { s with run := .stopped })

/-- SWI, 44_jump_branch.md R307: software interrupt. The return address is pc_next (60_exceptions.md R336, R338). -/
def execSwi (s : State) : Out :=
  .next (takeInterrupt swiVector false s.pc s)

/-- WAI, 44_jump_branch.md R308: wait for interrupt. The nine bytes are stacked at once with PC = pc_next, then the CPU waits (log 14). -/
def execWai (s : State) : Out :=
  .next { stackFrame s.pc s with run := .waiting }

end Sys2Proof.Machine
end

