-- ==== Sys2Proof/Machine/Transfer.lean ====
section
/-!
DEFINITION. The data transfer instructions (43_data_transfer.md R260 to R274): one meaning per instruction, written over
the shared operations of Ops, Operands and Flags.
-/

namespace Sys2Proof.Machine

/-- CLR, 43_data_transfer.md R260: clear a memory byte. One write, no read (20_memory.md R69). -/
def execClr (m : Mem) (s : State) : Out :=
  .next (store (effAddr m s) 0x00#8 { s with ccr := clearFlags s.ccr })

/-- CLRA, 43_data_transfer.md R261: clear accumulator A. -/
def execClra (s : State) : Out :=
  .next { s with a := 0x00#8, ccr := clearFlags s.ccr }

/-- CLRB, 43_data_transfer.md R262: clear accumulator B. -/
def execClrb (s : State) : Out :=
  .next { s with b := 0x00#8, ccr := clearFlags s.ccr }

/-- LDAA, 43_data_transfer.md R263: load accumulator A. -/
def execLdaa (op : Operand8) (s : State) : Out :=
  .next (accLoad .a op s)

/-- LDAB, 43_data_transfer.md R264: load accumulator B. -/
def execLdab (op : Operand8) (s : State) : Out :=
  .next (accLoad .b op s)

/-- LDD, 43_data_transfer.md R265: load accumulator D. -/
def execLdd (op : Operand16) (s : State) : Out :=
  .next (regLoad .d op s)

/-- PSHA, 43_data_transfer.md R266: push accumulator A onto the stack. -/
def execPsha (s : State) : Out :=
  .next (push s.a s)

/-- PSHB, 43_data_transfer.md R267: push accumulator B onto the stack. -/
def execPshb (s : State) : Out :=
  .next (push s.b s)

/-- PULA, 43_data_transfer.md R268: pull accumulator A from the stack. -/
def execPula (s : State) : Out :=
  .next { pulled s with a := pullValue s }

/-- PULB, 43_data_transfer.md R269: pull accumulator B from the stack. -/
def execPulb (s : State) : Out :=
  .next { pulled s with b := pullValue s }

/-- STAA, 43_data_transfer.md R270: store accumulator A. -/
def execStaa (m : Mem) (s : State) : Out :=
  .next (accStore .a m s)

/-- STAB, 43_data_transfer.md R271: store accumulator B. -/
def execStab (m : Mem) (s : State) : Out :=
  .next (accStore .b m s)

/-- STD, 43_data_transfer.md R272: store accumulator D. -/
def execStd (m : Mem) (s : State) : Out :=
  .next (regStore .d m s)

/-- TAB, 43_data_transfer.md R273: transfer accumulator A to accumulator B. The sheet wins over the general remark that transfers keep the flags (C2). -/
def execTab (s : State) : Out :=
  .next { s with b := s.a, ccr := nz8 s.a s.ccr }

/-- TBA, 43_data_transfer.md R274: transfer accumulator B to accumulator A. The sheet wins over the general remark that transfers keep the flags (C2). -/
def execTba (s : State) : Out :=
  .next { s with a := s.b, ccr := nz8 s.b s.ccr }

end Sys2Proof.Machine
end

