-- ==== Sys2Proof/Machine/Dispatch.lean ====
section
/-!
DEFINITION. The meaning of each instruction, arm by arm.
-/

namespace Sys2Proof.Machine

/-- The effect of an instruction in the state after its fetch, in which PC is `pc_next`, the address after its last byte
(10_state.md R27; `fetched` of Ops). -/
def exec (i : Instr) (s : State) : Host.Outcome State Fault Refusal :=
  match i with
  | .aba => Sys2Proof.Machine.execAba s
  | .adca op => Sys2Proof.Machine.execAdca op s
  | .adcb op => Sys2Proof.Machine.execAdcb op s
  | .adda op => Sys2Proof.Machine.execAdda op s
  | .addb op => Sys2Proof.Machine.execAddb op s
  | .addd op => Sys2Proof.Machine.execAddd op s
  | .cba => Sys2Proof.Machine.execCba s
  | .cmpa op => Sys2Proof.Machine.execCmpa op s
  | .cmpb op => Sys2Proof.Machine.execCmpb op s
  | .cpd op => Sys2Proof.Machine.execCpd op s
  | .daa => Sys2Proof.Machine.execDaa s
  | .dec m => Sys2Proof.Machine.execDec m s
  | .deca => Sys2Proof.Machine.execDeca s
  | .decb => Sys2Proof.Machine.execDecb s
  | .fdiv => Sys2Proof.Machine.execFdiv s
  | .idiv => Sys2Proof.Machine.execIdiv s
  | .inc m => Sys2Proof.Machine.execInc m s
  | .inca => Sys2Proof.Machine.execInca s
  | .incb => Sys2Proof.Machine.execIncb s
  | .mul => Sys2Proof.Machine.execMul s
  | .neg m => Sys2Proof.Machine.execNeg m s
  | .nega => Sys2Proof.Machine.execNega s
  | .negb => Sys2Proof.Machine.execNegb s
  | .sba => Sys2Proof.Machine.execSba s
  | .sbca op => Sys2Proof.Machine.execSbca op s
  | .sbcb op => Sys2Proof.Machine.execSbcb op s
  | .suba op => Sys2Proof.Machine.execSuba op s
  | .subb op => Sys2Proof.Machine.execSubb op s
  | .subd op => Sys2Proof.Machine.execSubd op s
  | .tst m => Sys2Proof.Machine.execTst m s
  | .tsta => Sys2Proof.Machine.execTsta s
  | .tstb => Sys2Proof.Machine.execTstb s
  | .anda op => Sys2Proof.Machine.execAnda op s
  | .andb op => Sys2Proof.Machine.execAndb op s
  | .asr m => Sys2Proof.Machine.execAsr m s
  | .asra => Sys2Proof.Machine.execAsra s
  | .asrb => Sys2Proof.Machine.execAsrb s
  | .bclr m mm => Sys2Proof.Machine.execBclr m mm s
  | .bita op => Sys2Proof.Machine.execBita op s
  | .bitb op => Sys2Proof.Machine.execBitb op s
  | .bset m mm => Sys2Proof.Machine.execBset m mm s
  | .com m => Sys2Proof.Machine.execCom m s
  | .coma => Sys2Proof.Machine.execComa s
  | .comb => Sys2Proof.Machine.execComb s
  | .eora op => Sys2Proof.Machine.execEora op s
  | .eorb op => Sys2Proof.Machine.execEorb op s
  | .lsl m => Sys2Proof.Machine.execLsl m s
  | .lsla => Sys2Proof.Machine.execLsla s
  | .lslb => Sys2Proof.Machine.execLslb s
  | .lsld => Sys2Proof.Machine.execLsld s
  | .lsr m => Sys2Proof.Machine.execLsr m s
  | .lsra => Sys2Proof.Machine.execLsra s
  | .lsrb => Sys2Proof.Machine.execLsrb s
  | .lsrd => Sys2Proof.Machine.execLsrd s
  | .oraa op => Sys2Proof.Machine.execOraa op s
  | .orab op => Sys2Proof.Machine.execOrab op s
  | .rol m => Sys2Proof.Machine.execRol m s
  | .rola => Sys2Proof.Machine.execRola s
  | .rolb => Sys2Proof.Machine.execRolb s
  | .ror m => Sys2Proof.Machine.execRor m s
  | .rora => Sys2Proof.Machine.execRora s
  | .rorb => Sys2Proof.Machine.execRorb s
  | .abx => Sys2Proof.Machine.execAbx s
  | .aby => Sys2Proof.Machine.execAby s
  | .cpx op => Sys2Proof.Machine.execCpx op s
  | .cpy op => Sys2Proof.Machine.execCpy op s
  | .des => Sys2Proof.Machine.execDes s
  | .dex => Sys2Proof.Machine.execDex s
  | .dey => Sys2Proof.Machine.execDey s
  | .ins => Sys2Proof.Machine.execIns s
  | .inx => Sys2Proof.Machine.execInx s
  | .iny => Sys2Proof.Machine.execIny s
  | .lds op => Sys2Proof.Machine.execLds op s
  | .ldx op => Sys2Proof.Machine.execLdx op s
  | .ldy op => Sys2Proof.Machine.execLdy op s
  | .pshx => Sys2Proof.Machine.execPshx s
  | .pshy => Sys2Proof.Machine.execPshy s
  | .pulx => Sys2Proof.Machine.execPulx s
  | .puly => Sys2Proof.Machine.execPuly s
  | .sts m => Sys2Proof.Machine.execSts m s
  | .stx m => Sys2Proof.Machine.execStx m s
  | .sty m => Sys2Proof.Machine.execSty m s
  | .tsx => Sys2Proof.Machine.execTsx s
  | .tsy => Sys2Proof.Machine.execTsy s
  | .txs => Sys2Proof.Machine.execTxs s
  | .tys => Sys2Proof.Machine.execTys s
  | .xgdx => Sys2Proof.Machine.execXgdx s
  | .xgdy => Sys2Proof.Machine.execXgdy s
  | .clr m => Sys2Proof.Machine.execClr m s
  | .clra => Sys2Proof.Machine.execClra s
  | .clrb => Sys2Proof.Machine.execClrb s
  | .ldaa op => Sys2Proof.Machine.execLdaa op s
  | .ldab op => Sys2Proof.Machine.execLdab op s
  | .ldd op => Sys2Proof.Machine.execLdd op s
  | .psha => Sys2Proof.Machine.execPsha s
  | .pshb => Sys2Proof.Machine.execPshb s
  | .pula => Sys2Proof.Machine.execPula s
  | .pulb => Sys2Proof.Machine.execPulb s
  | .staa m => Sys2Proof.Machine.execStaa m s
  | .stab m => Sys2Proof.Machine.execStab m s
  | .std m => Sys2Proof.Machine.execStd m s
  | .tab => Sys2Proof.Machine.execTab s
  | .tba => Sys2Proof.Machine.execTba s
  | .bra rr => Sys2Proof.Machine.execBra rr s
  | .brn rr => Sys2Proof.Machine.execBrn rr s
  | .bhi rr => Sys2Proof.Machine.execBhi rr s
  | .bls rr => Sys2Proof.Machine.execBls rr s
  | .bcc rr => Sys2Proof.Machine.execBcc rr s
  | .bcs rr => Sys2Proof.Machine.execBcs rr s
  | .bne rr => Sys2Proof.Machine.execBne rr s
  | .beq rr => Sys2Proof.Machine.execBeq rr s
  | .bvc rr => Sys2Proof.Machine.execBvc rr s
  | .bvs rr => Sys2Proof.Machine.execBvs rr s
  | .bpl rr => Sys2Proof.Machine.execBpl rr s
  | .bmi rr => Sys2Proof.Machine.execBmi rr s
  | .bge rr => Sys2Proof.Machine.execBge rr s
  | .blt rr => Sys2Proof.Machine.execBlt rr s
  | .bgt rr => Sys2Proof.Machine.execBgt rr s
  | .ble rr => Sys2Proof.Machine.execBle rr s
  | .brclr m mm rr => Sys2Proof.Machine.execBrclr m mm rr s
  | .brset m mm rr => Sys2Proof.Machine.execBrset m mm rr s
  | .bsr rr => Sys2Proof.Machine.execBsr rr s
  | .jmp m => Sys2Proof.Machine.execJmp m s
  | .jsr m => Sys2Proof.Machine.execJsr m s
  | .nop => Sys2Proof.Machine.execNop s
  | .rti => Sys2Proof.Machine.execRti s
  | .rts => Sys2Proof.Machine.execRts s
  | .stop => Sys2Proof.Machine.execStop s
  | .swi => Sys2Proof.Machine.execSwi s
  | .wai => Sys2Proof.Machine.execWai s
  | .clc => Sys2Proof.Machine.execClc s
  | .cli => Sys2Proof.Machine.execCli s
  | .clv => Sys2Proof.Machine.execClv s
  | .sec => Sys2Proof.Machine.execSec s
  | .sei => Sys2Proof.Machine.execSei s
  | .sev => Sys2Proof.Machine.execSev s
  | .tap => Sys2Proof.Machine.execTap s
  | .tpa => Sys2Proof.Machine.execTpa s

end Sys2Proof.Machine
end

