-- ==== Sys2Proof/Machine/Step.lean ====
section
/-!
DEFINITION. One step: the lines are sampled, and the boundary brings a reset, an interrupt, a wake-up, a wait or the
instruction at PC (60_exceptions.md R334, R352). All that a step does is called from the files of Machine/.
-/

namespace Sys2Proof.Machine

/-- The state an instruction boundary works on: the lines sampled (log 10), and the mark of a CLI or TAP used up. -/
def State.atBoundary (s : State) : State := { sample s with lateClear := false }

/-- The event that the boundary of `s` brings. -/
def State.event (s : State) : Event := recognise (sample s)

/-- Fetch and execute the instruction at PC (60_exceptions.md R334 step 4), decoded with the configured `OPCODE_MAP`
(30_encoding.md R96); bytes that select no instruction raise the illegal-opcode trap (R340). -/
def fetchAndExecute (s : State) : Out :=
  match decode s.cfg.opcodeMap (fetchBytes s) with
  | .ok (i, _) => exec i (fetched s)
  | .error _ => .next (illegalOpcodeTrap s.pc (fetched s))

/-- One step of the machine. -/
def step (s : State) : Host.Outcome State Fault Refusal :=
  match s.event with
  | .reset cause => .next (resetSequence cause s.atBoundary)
  | .interrupt vector setX => .next (takeInterrupt vector setX s.atBoundary.pc s.atBoundary)
  | .wake vector setX => .next (enterVector vector setX s.atBoundary)
  | .resume => .next (resumeRunning s.atBoundary)
  | .idle => .next s.atBoundary
  | .execute => fetchAndExecute s.atBoundary

/-- The state with an instruction of spec/opcode_table.json stored where the next step fetches, from outside the
machine: its bytes at PC, the CPU running and no line asserted, so that the next boundary brings that instruction and
no interrupt (log 4). It is the next instruction where the five addresses at PC are RAM or ROM, as they are after
reset. -/
def State.withFetchWord (s : State) (nbits w : Nat) : State :=
  { placeBytes (tableBytes nbits w) s.pc s with run := .running, lines := Lines.quiet, script := [] }

end Sys2Proof.Machine
end

