-- ==== Sys2Proof/Safety.lean ====
section
/-!
DEFINITION. What claims about runs are stated in: the invariant every step keeps, the end of a run (70_reset_and_hazards.md
R386), and the launch premises about the environment and the stack (R387).
-/

namespace Sys2Proof.Machine

/-- The invariant of the machine: memory is in its canonical form; the mark of a CLI or TAP that cleared I stands only
while I is 0 and the CPU runs (60_exceptions.md R334); a stopped CPU has S = 0 (44_jump_branch.md R306). -/
structure State.Inv (s : State) : Prop where
  memory : Memory.wf s.mem = true
  lateClear : s.lateClear = true → s.flag .i = false ∧ s.run = .running
  stopped : s.run = .stopped → s.flag .s = false

/-- The end of a run by the spec's convention (70_reset_and_hazards.md R386): running at `endAddr`, where `BRA *`
stands. -/
def State.atEnd (endAddr : Word) (s : State) : Bool :=
  s.pc == endAddr && s.run == .running && s.memByte endAddr == 0x20#8 && s.memByte (endAddr + 1) == 0xFE#8

/-- Launch premise P4 in its strongest form (70_reset_and_hazards.md R387): no request and no reset, now or later. -/
def State.noRequests (s : State) : Bool := s.lines == Lines.quiet && s.script == []

/-- Launch premise P6 (70_reset_and_hazards.md R387): the `n` bytes from SP down are RAM. -/
def State.stackRoom (s : State) : Nat → Bool
  | 0 => true
  | n + 1 => s.kind (s.sp - BitVec.ofNat 16 n) == .ram && s.stackRoom n

/-- The `n` bytes from an address on are RAM or ROM. -/
def State.inMemory (s : State) (a : Word) : Nat → Bool
  | 0 => true
  | n + 1 => s.isMemory a && s.inMemory (a + 1) n

/-- The `n` bytes of RAM or ROM from an address on. -/
def State.memBytes (s : State) (a : Word) : Nat → List Byte
  | 0 => []
  | n + 1 => s.memByte a :: s.memBytes (a + 1) n

/-- The next boundary executes the instruction at PC: it brings no reset, no interrupt and no wait. -/
def State.executes (s : State) : Prop := s.event = .execute

/-! ## What an instruction leaves unchanged -/

/-- The registers of 10_state.md R20 but for PC and CCR, which statements treat on their own. -/
inductive Reg where
  | a
  | b
  | ix
  | iy
  | sp
deriving DecidableEq, Repr

/-- The value of a register as a number. -/
def State.reg (s : State) : Reg → Nat
  | .a => s.a.toNat
  | .b => s.b.toNat
  | .ix => s.ix.toNat
  | .iy => s.iy.toNat
  | .sp => s.sp.toNat

/-- The register an accumulator is. -/
def Acc.reg : Acc → Reg
  | .a => .a
  | .b => .b

/-- The registers a 16-bit register consists of; D is A:B (10_state.md R22). -/
def Reg16.regs : Reg16 → List Reg
  | .d => [.a, .b]
  | .x => [.ix]
  | .y => [.iy]
  | .sp => [.sp]

/-- From `s` to `t`, no register outside `regs`, no bit of the CCR outside `flags` and no byte of memory outside
`stored` changes, and nothing outside the CPU that a step does not touch changes either: the last reset's cause, the
lines of the environment, the RAM generation and the configuration. -/
structure Frame (regs : List Reg) (flags : List Flag) (stored : List Word) (s t : State) : Prop where
  registers : ∀ r, r ∉ regs → t.reg r = s.reg r
  ccr : ∀ f, f ∉ flags → t.flag f = s.flag f
  memory : ∀ x, x ∉ stored → t.memByte x = s.memByte x
  lastReset : t.lastReset = s.lastReset
  lines : t.lines = s.lines
  script : t.script = s.script
  generation : t.generation = s.generation
  cfg : t.cfg = s.cfg

/-- The run state and the mark of a CLI or TAP that cleared I are those of `s`. -/
def SameRun (s t : State) : Prop := t.run = s.run ∧ t.lateClear = s.lateClear

/-- `t` has made the accesses to devices, and used up the free values, that `u` has: every I/O access, in order. -/
def SameAccesses (u t : State) : Prop := t.io = u.io ∧ t.draws = u.draws

/-- The byte at an address to which a store has gone: RAM holds the value stored, and where there is no RAM the bytes of
memory are as they were in `s` (20_memory.md R63; a device is handed the value, which is in `SameAccesses`). -/
def Stored (s t : State) (x : Word) (v : Byte) : Prop :=
  (s.kind x = .ram → t.memByte x = v) ∧ (s.kind x ≠ .ram → t.memByte x = s.memByte x)

/-- `i` completes in `s`, the state after its fetch: it goes on at the next instruction, where PC is already, with the
effect `P`, changing registers `regs`, bits `flags` of the CCR and the bytes `stored` at most, after the accesses that
`u` has made. -/
def Runs (i : Instr) (s : State) (regs : List Reg) (flags : List Flag) (stored : List Word) (u : State)
    (P : State → Prop) : Prop :=
  ∃ t, exec i s = .next t ∧ P t ∧ t.pc = s.pc ∧ Frame regs flags stored s t ∧ SameRun s t ∧ SameAccesses u t

/-- `i` completes in `s` and goes on at `target`, with the effect `P`, changing registers `regs` and the bytes `stored`
and no flag, after the accesses that `u` has made. -/
def Jumps (i : Instr) (s : State) (target : Word) (regs : List Reg) (stored : List Word) (u : State)
    (P : State → Prop) : Prop :=
  ∃ t, exec i s = .next t ∧ P t ∧ t.pc = target ∧ Frame regs [] stored s t ∧ SameRun s t ∧ SameAccesses u t

/-- A read-modify-write instruction completes: one read of the effective address, the effect `law` on the byte read and
the byte written, one write of the effective address (20_memory.md R69), changing bits `flags` of the CCR at most. -/
def Modifies (i : Instr) (m : Mem) (flags : List Flag) (s : State) (law : Byte → Byte → State → Prop) : Prop :=
  ∃ r, Runs i s [] flags [effAddr m s] (store (effAddr m s) r (touch (effAddr m s) s)) fun t =>
    law (peek (effAddr m s) s) r t ∧ Stored s t (effAddr m s) r

/-- An instruction on one accumulator completes with the effect `law` on the value before and the value after. -/
def Rewrites (i : Instr) (r : Acc) (flags : List Flag) (s : State) (law : Byte → Byte → State → Prop) : Prop :=
  Runs i s [r.reg] flags [] s fun t => law (s.acc r) (t.acc r) t

/-! ## The laws of results and flags, in numbers -/

/-- The add law (40_arithmetic.md R130, R132) for operands of `w` bits, but for H. V says that the signed sum does not
fit, as R130's gloss of its V line has it. -/
structure AddLaw (w : Nat) (x y : BitVec w) (cin : Bool) (r : BitVec w) (t : State) : Prop where
  value : r.toNat = (x.toNat + y.toNat + cin.toNat) % 2 ^ w
  negative : t.flag .n = r.msb
  zero : t.flag .z = decide (r = 0#w)
  overflow : t.flag .v = !(decide (-2 ^ (w - 1) ≤ x.toInt + y.toInt + cin.toNat) &&
    decide (x.toInt + y.toInt + cin.toNat < 2 ^ (w - 1)))
  carry : t.flag .c = decide (2 ^ w ≤ x.toNat + y.toNat + cin.toNat)

/-- The subtract law (40_arithmetic.md R131, R133) for operands of `w` bits. V says that the signed difference does not
fit; C that a borrow was needed. -/
structure SubLaw (w : Nat) (x y : BitVec w) (bin : Bool) (r : BitVec w) (t : State) : Prop where
  value : (r.toNat : Int) = ((x.toNat : Int) - y.toNat - bin.toNat) % 2 ^ w
  negative : t.flag .n = r.msb
  zero : t.flag .z = decide (r = 0#w)
  overflow : t.flag .v = !(decide (-2 ^ (w - 1) ≤ x.toInt - y.toInt - bin.toNat) &&
    decide (x.toInt - y.toInt - bin.toNat < 2 ^ (w - 1)))
  carry : t.flag .c = decide (x.toNat < y.toNat + bin.toNat)

/-- The law of loads, stores, transfers and logic (40_arithmetic.md R134): N, Z from the value, V cleared. -/
structure NzLaw (w : Nat) (r : BitVec w) (t : State) : Prop where
  negative : t.flag .n = r.msb
  zero : t.flag .z = decide (r = 0#w)
  overflow : t.flag .v = false

/-- The flags of every shift and rotate (41_bitwise.md R180), with the bit that leaves. -/
structure ShiftLaw (w : Nat) (r : BitVec w) (out : Bool) (t : State) : Prop where
  carry : t.flag .c = out
  negative : t.flag .n = r.msb
  zero : t.flag .z = decide (r = 0#w)
  overflow : t.flag .v = xor r.msb out

/-! ## The flags column -/

/-- One character of a flags column (00_scope.md R11). -/
inductive FlagMark where
  /-- `-`: the flag keeps its value. -/
  | kept
  /-- `*`: the instruction computes it. -/
  | computed
  /-- `0`. -/
  | zero
  /-- `1`. -/
  | one
  /-- `?`: no defined value. -/
  | free
deriving DecidableEq, Repr

/-- A flags column: the marks of H, N, Z, V and C. -/
structure FlagColumn where
  h : FlagMark
  n : FlagMark
  z : FlagMark
  v : FlagMark
  c : FlagMark
deriving DecidableEq, Repr

/-- The flags column of every instruction (10_state.md R38). -/
def flagColumn : Instr → FlagColumn
  | .aba | .adca _ | .adcb _ | .adda _ | .addb _ => ⟨.computed, .computed, .computed, .computed, .computed⟩
  | .addd _ | .cba | .cmpa _ | .cmpb _ | .cpd _ | .neg _ | .nega | .negb | .sba | .sbca _ | .sbcb _ | .suba _ | .subb _
  | .subd _ => ⟨.kept, .computed, .computed, .computed, .computed⟩
  | .daa => ⟨.kept, .computed, .computed, .free, .computed⟩
  | .dec _ | .deca | .decb | .inc _ | .inca | .incb => ⟨.kept, .computed, .computed, .computed, .kept⟩
  | .fdiv => ⟨.kept, .kept, .computed, .computed, .computed⟩
  | .idiv => ⟨.kept, .kept, .computed, .zero, .computed⟩
  | .mul => ⟨.kept, .kept, .kept, .kept, .computed⟩
  | .tst _ | .tsta | .tstb => ⟨.kept, .computed, .computed, .zero, .zero⟩
  | .anda _ | .andb _ | .bita _ | .bitb _ | .eora _ | .eorb _ | .oraa _ | .orab _ | .bclr _ _ | .bset _ _ =>
    ⟨.kept, .computed, .computed, .zero, .kept⟩
  | .asr _ | .asra | .asrb | .lsl _ | .lsla | .lslb | .lsld | .rol _ | .rola | .rolb | .ror _ | .rora | .rorb =>
    ⟨.kept, .computed, .computed, .computed, .computed⟩
  | .lsr _ | .lsra | .lsrb | .lsrd => ⟨.kept, .zero, .computed, .computed, .computed⟩
  | .com _ | .coma | .comb => ⟨.kept, .computed, .computed, .zero, .one⟩
  | .cpx _ | .cpy _ => ⟨.kept, .computed, .computed, .computed, .computed⟩
  | .dex | .dey | .inx | .iny => ⟨.kept, .kept, .computed, .kept, .kept⟩
  | .lds _ | .ldx _ | .ldy _ | .sts _ | .stx _ | .sty _ => ⟨.kept, .computed, .computed, .zero, .kept⟩
  | .abx | .aby | .des | .ins | .pshx | .pshy | .pulx | .puly | .tsx | .tsy | .txs | .tys | .xgdx | .xgdy =>
    ⟨.kept, .kept, .kept, .kept, .kept⟩
  | .clr _ | .clra | .clrb => ⟨.kept, .zero, .one, .zero, .zero⟩
  | .ldaa _ | .ldab _ | .ldd _ | .staa _ | .stab _ | .std _ | .tab | .tba =>
    ⟨.kept, .computed, .computed, .zero, .kept⟩
  | .psha | .pshb | .pula | .pulb => ⟨.kept, .kept, .kept, .kept, .kept⟩
  | .bra _ | .brn _ | .bhi _ | .bls _ | .bcc _ | .bcs _ | .bne _ | .beq _ | .bvc _ | .bvs _ | .bpl _ | .bmi _ | .bge _
  | .blt _ | .bgt _ | .ble _ | .brclr _ _ _ | .brset _ _ _ | .bsr _ | .jmp _ | .jsr _ | .nop | .rts | .stop | .swi
  | .wai => ⟨.kept, .kept, .kept, .kept, .kept⟩
  | .rti => ⟨.computed, .computed, .computed, .computed, .computed⟩
  | .clc => ⟨.kept, .kept, .kept, .kept, .zero⟩
  | .clv => ⟨.kept, .kept, .kept, .zero, .kept⟩
  | .sec => ⟨.kept, .kept, .kept, .kept, .one⟩
  | .sev => ⟨.kept, .kept, .kept, .one, .kept⟩
  | .cli | .sei | .tpa => ⟨.kept, .kept, .kept, .kept, .kept⟩
  | .tap => ⟨.computed, .computed, .computed, .computed, .computed⟩

/-- What a mark says of a flag's value before and after. -/
def FlagMark.Says (mark : FlagMark) (before after : Bool) : Prop :=
  match mark with
  | .kept => after = before
  | .computed => True
  | .zero => after = false
  | .one => after = true
  | .free => True

/-! ## Exception entry and the stack frame -/

/-- The nine addresses an entry stacks at, from SP down (20_memory.md R71). -/
def frameAddresses (s : State) : List Word :=
  [s.sp, s.sp - 1, s.sp - 2, s.sp - 3, s.sp - 4, s.sp - 5, s.sp - 6, s.sp - 7, s.sp - 8]

/-- The nine bytes an entry with the return address `ret` stacks, in the order they are pushed (60_exceptions.md R336). -/
def frameBytes (ret : Word) (s : State) : List Byte :=
  [loByte ret, hiByte ret, loByte s.iy, hiByte s.iy, loByte s.ix, hiByte s.ix, s.a, s.b, s.ccr]

/-- `t` holds the frame that an entry with the return address `ret` stacks in `s`, and SP is nine lower. -/
def HoldsFrame (ret : Word) (s t : State) : Prop :=
  t.sp = s.sp - 9 ∧ ∀ p ∈ (frameAddresses s).zip (frameBytes ret s), Stored s t p.1 p.2

/-- The effect of `TakeInterrupt(vector, setX)` with the return address `ret` (60_exceptions.md R336), from `s` to `t`:
the frame is stacked, then I is set, for XIRQ X too, and PC is the word read at the vector after the stacking. -/
structure Entered (vector : Word) (setX : Bool) (ret : Word) (s t : State) : Prop where
  frame : HoldsFrame ret s t
  unchanged : Frame [.sp] [.i, .x] (frameAddresses s) s t
  maskI : t.flag .i = true
  maskX : t.flag .x = (setX || s.flag .x)
  pc : t.pc = peek16 (vec s.cfg.mode vector) (stackFrame ret s)
  run : t.run = .running
  lateClear : t.lateClear = s.lateClear
  accesses : SameAccesses (touch16 (vec s.cfg.mode vector) (stackFrame ret s)) t

end Sys2Proof.Machine
end

