-- ==== Sys2Proof/Certificates/Slice0/Obligations.lean ====
section
/-!
DEFINITION. The statements for the provers, from the numbered rules of spec/. The shapes that several instructions share
are written once at the head of a section; `Runs`, `Jumps`, `Modifies` and `Rewrites` (Safety.lean) say that the
instruction completes, where it goes on, and what it leaves unchanged. `exec` takes the state after the fetch, whose PC is
`pc_next`, the address after the instruction's last byte (10_state.md R27): in a statement about `exec`, `s.pc` is that.
-/

namespace Sys2Proof.Machine

/-! ## Shapes of instruction -/

/-- An addition into an accumulator (40_arithmetic.md R130). -/
def Adds (i : Instr) (r : Acc) (op : Operand8) (cin : Bool) (s : State) : Prop :=
  Runs i s [r.reg] [.h, .n, .z, .v, .c] [] (afterOperand8 op s) fun t =>
    AddLaw 8 (s.acc r) (operand8 op s) cin (t.acc r) t ∧
      t.flag .h = decide (15 < (s.acc r).toNat % 16 + (operand8 op s).toNat % 16 + cin.toNat)

/-- A subtraction from an accumulator (40_arithmetic.md R131). -/
def Subtracts (i : Instr) (r : Acc) (op : Operand8) (bin : Bool) (s : State) : Prop :=
  Runs i s [r.reg] [.n, .z, .v, .c] [] (afterOperand8 op s) fun t =>
    SubLaw 8 (s.acc r) (operand8 op s) bin (t.acc r) t

/-- A comparison of an accumulator: the difference goes nowhere (40_arithmetic.md R131). -/
def Compares (i : Instr) (r : Acc) (op : Operand8) (s : State) : Prop :=
  ∃ d, Runs i s [] [.n, .z, .v, .c] [] (afterOperand8 op s) fun t => SubLaw 8 (s.acc r) (operand8 op s) false d t

/-- A comparison of a 16-bit register (40_arithmetic.md R133). -/
def Compares16 (i : Instr) (r : Reg16) (op : Operand16) (s : State) : Prop :=
  ∃ d, Runs i s [] [.n, .z, .v, .c] [] (afterOperand16 op s) fun t =>
    SubLaw 16 (s.reg16 r) (operand16 op s) false d t

/-- A bitwise operation on an accumulator (40_arithmetic.md R134). -/
def Combines (i : Instr) (r : Acc) (op : Operand8) (f : Bool → Bool → Bool) (s : State) : Prop :=
  Runs i s [r.reg] [.n, .z, .v] [] (afterOperand8 op s) fun t =>
    NzLaw 8 (t.acc r) t ∧ ∀ k : Fin 8, (t.acc r)[k] = f (s.acc r)[k] (operand8 op s)[k]

/-- A load of an accumulator (40_arithmetic.md R134). -/
def Loads (i : Instr) (r : Acc) (op : Operand8) (s : State) : Prop :=
  Runs i s [r.reg] [.n, .z, .v] [] (afterOperand8 op s) fun t => t.acc r = operand8 op s ∧ NzLaw 8 (operand8 op s) t

/-- A load of a 16-bit register (40_arithmetic.md R134). -/
def Loads16 (i : Instr) (r : Reg16) (op : Operand16) (s : State) : Prop :=
  Runs i s r.regs [.n, .z, .v] [] (afterOperand16 op s) fun t =>
    t.reg16 r = operand16 op s ∧ NzLaw 16 (operand16 op s) t

/-- A store of an accumulator: one write, no read (40_arithmetic.md R134). -/
def Stores (i : Instr) (r : Acc) (m : Mem) (s : State) : Prop :=
  Runs i s [] [.n, .z, .v] [effAddr m s] (store (effAddr m s) (s.acc r) s) fun t =>
    Stored s t (effAddr m s) (s.acc r) ∧ NzLaw 8 (s.acc r) t

/-- A store of a 16-bit register: the high byte at the effective address, the low byte at the next (20_memory.md R64). -/
def Stores16 (i : Instr) (r : Reg16) (m : Mem) (s : State) : Prop :=
  Runs i s [] [.n, .z, .v] [effAddr m s, effAddr m s + 1] (store16 (effAddr m s) (s.reg16 r) s) fun t =>
    Stored s t (effAddr m s) (hiByte (s.reg16 r)) ∧ Stored s t (effAddr m s + 1) (loByte (s.reg16 r)) ∧
      NzLaw 16 (s.reg16 r) t

/-- A step of a 16-bit register by a signed amount that sets Z alone (10_state.md R32). -/
def StepsIndex (i : Instr) (r : Reg16) (amount : Int) (s : State) : Prop :=
  Runs i s r.regs [.z] [] s fun t =>
    ((t.reg16 r).toNat : Int) = ((s.reg16 r).toNat + amount) % 65536 ∧ t.flag .z = decide (t.reg16 r = 0#16)

/-- A 16-bit register takes the sum of a register and a signed amount; no flag changes. -/
def Transfers (i : Instr) (dst : Reg16) (src : Reg16) (amount : Int) (s : State) : Prop :=
  Runs i s dst.regs [] [] s fun t => ((t.reg16 dst).toNat : Int) = ((s.reg16 src).toNat + amount) % 65536

/-- A push of a byte: the store is at the old SP (20_memory.md R70). -/
def Pushes (i : Instr) (v : Byte) (s : State) : Prop :=
  Runs i s [.sp] [] [s.sp] (store s.sp v s) fun t => Stored s t s.sp v ∧ t.sp = s.sp - 1

/-- A push of a word: the low byte first, so that the high byte lies at the lower address (20_memory.md R71). -/
def PushesWord (i : Instr) (v : Word) (s : State) : Prop :=
  Runs i s [.sp] [] [s.sp, s.sp - 1] (store (s.sp - 1) (hiByte v) (store s.sp (loByte v) s)) fun t =>
    Stored s t s.sp (loByte v) ∧ Stored s t (s.sp - 1) (hiByte v) ∧ t.sp = s.sp - 2

/-- A conditional branch: the target is `pc_next` plus the signed displacement (44_jump_branch.md R280). -/
def Branches (i : Instr) (rr : Byte) (taken : Bool) (after s : State) : Prop :=
  Jumps i s (BitVec.ofInt 16 (s.pc.toNat + if taken then rr.toInt else 0)) [] [] after fun _ => True

/-- A call: `pc_next` is pushed, low byte first, and PC is the target (44_jump_branch.md R300, R302). -/
def Calls (i : Instr) (target : Word) (s : State) : Prop :=
  Jumps i s target [.sp] [s.sp, s.sp - 1]
    (store (s.sp - 1) (hiByte s.pc) (store s.sp (loByte s.pc) s)) fun t =>
      Stored s t s.sp (loByte s.pc) ∧ Stored s t (s.sp - 1) (hiByte s.pc) ∧ t.sp = s.sp - 2

/-- An instruction that writes one bit of the CCR and nothing else. -/
def WritesFlag (i : Instr) (f : Flag) (value : Bool) (s : State) : Prop :=
  Runs i s [] [f] [] s fun t => t.flag f = value

/-- INC of `x` to `r` (40_arithmetic.md R152): V exactly when the operand was 0x7F. -/
def IncrementLaw (x r : Byte) (t : State) : Prop :=
  r.toNat = (x.toNat + 1) % 256 ∧ t.flag .n = r.msb ∧ t.flag .z = decide (r = 0#8) ∧ t.flag .v = decide (x = 0x7F#8)

/-- DEC of `x` to `r` (40_arithmetic.md R147): V exactly when the operand was 0x80. -/
def DecrementLaw (x r : Byte) (t : State) : Prop :=
  x.toNat = (r.toNat + 1) % 256 ∧ t.flag .n = r.msb ∧ t.flag .z = decide (r = 0#8) ∧ t.flag .v = decide (x = 0x80#8)

/-- NEG of `x` to `r` (40_arithmetic.md R156): C exactly when the operand was not 0, V exactly when it was 0x80. -/
def NegateLaw (x r : Byte) (t : State) : Prop :=
  (x.toNat + r.toNat) % 256 = 0 ∧ t.flag .n = r.msb ∧ t.flag .z = decide (r = 0#8) ∧ t.flag .v = decide (x = 0x80#8) ∧
    t.flag .c = decide (x ≠ 0#8)

/-- TST of `x` (40_arithmetic.md R165). -/
def TestLaw (x : Byte) (t : State) : Prop :=
  t.flag .n = x.msb ∧ t.flag .z = decide (x = 0#8) ∧ t.flag .v = false ∧ t.flag .c = false

/-- The flags of CLR (43_data_transfer.md R260). -/
def ClearLaw (t : State) : Prop := t.flag .n = false ∧ t.flag .z = true ∧ t.flag .v = false ∧ t.flag .c = false

/-- COM of `x` to `r` (41_bitwise.md R190). -/
def ComplementLaw (x r : Byte) (t : State) : Prop := (∀ k : Fin 8, r[k] = !x[k]) ∧ NzLaw 8 r t ∧ t.flag .c = true

/-- A left shift or rotate of `x` to `r` with `cin` at bit 0 (41_bitwise.md R180, R195, R205). -/
def LeftLaw (cin : Bool) (x r : Byte) (t : State) : Prop :=
  r.toNat = (2 * x.toNat + cin.toNat) % 256 ∧ ShiftLaw 8 r (decide (128 ≤ x.toNat)) t

/-- A logical right shift or a rotate of `x` to `r` with `cin` at bit 7 (41_bitwise.md R180, R199, R208). -/
def RightLaw (cin : Bool) (x r : Byte) (t : State) : Prop :=
  r.toNat = x.toNat / 2 + 128 * cin.toNat ∧ ShiftLaw 8 r (decide (x.toNat % 2 = 1)) t

/-- An arithmetic right shift of `x` to `r`: the signed half, rounded down (41_bitwise.md R180, R183). -/
def SignedRightLaw (x r : Byte) (t : State) : Prop :=
  r.toInt = x.toInt / 2 ∧ ShiftLaw 8 r (decide (x.toNat % 2 = 1)) t

/-- The ten conditional branches that order two operands go the way the numbers compare (44_jump_branch.md R281, last
column): from `t`, after a comparison of `x` with `y`, wherever the fetch of the branch has left PC. -/
def OrdersBy (w : Nat) (x y : BitVec w) (rr : Byte) (t : State) : Prop :=
  let goes (i : Instr) (p : Bool) : Prop :=
    ∀ pcNext : Word, ∃ u, exec i { t with pc := pcNext } = .next u ∧
      u.pc = if p then pcNext + rr.signExtend 16 else pcNext
  goes (.bhi rr) (decide (y.toNat < x.toNat)) ∧ goes (.bls rr) (decide (x.toNat ≤ y.toNat)) ∧
  goes (.bcc rr) (decide (y.toNat ≤ x.toNat)) ∧ goes (.bcs rr) (decide (x.toNat < y.toNat)) ∧
  goes (.bne rr) (decide (x ≠ y)) ∧ goes (.beq rr) (decide (x = y)) ∧
  goes (.bge rr) (decide (y.toInt ≤ x.toInt)) ∧ goes (.blt rr) (decide (x.toInt < y.toInt)) ∧
  goes (.bgt rr) (decide (y.toInt < x.toInt)) ∧ goes (.ble rr) (decide (x.toInt ≤ y.toInt))

/-- The end of WAI through a vector without a second stacking (60_exceptions.md R352(b)), from `s` to `t`. -/
structure WokenUp (vector : Word) (setX : Bool) (s t : State) : Prop where
  unchanged : Frame [] [.i, .x] [] s t
  maskI : t.flag .i = true
  maskX : t.flag .x = (setX || s.flag .x)
  pc : t.pc = peek16 (vec s.cfg.mode vector) s
  run : t.run = .running
  accesses : SameAccesses (touch16 (vec s.cfg.mode vector) s) t

/-- The vector address a reset uses (70_reset_and_hazards.md R381, the table's six cells). -/
def resetCell : Mode → ResetCause → Word
  | .normal, .powerOn => 0xFFFE#16
  | .normal, .pin => 0xFFFE#16
  | .normal, .clockMonitor => 0xFFFC#16
  | .normal, .cop => 0xFFFA#16
  | .testOrBoot, .powerOn => 0xBFFE#16
  | .testOrBoot, .pin => 0xBFFE#16
  | .testOrBoot, .clockMonitor => 0xBFFC#16
  | .testOrBoot, .cop => 0xBFFA#16

/-- Both digits of a byte are decimal. -/
def isBcd (v : Byte) : Bool := decide (v.toNat / 16 ≤ 9) && decide (v.toNat % 16 ≤ 9)

/-- The number two decimal digits stand for. -/
def bcdValue (v : Byte) : Nat := v.toNat / 16 * 10 + v.toNat % 16

/-- After `i`, which adds `y` and the carry `cin` to A, DAA leaves the decimal sum in C:A, in two decimal digits. -/
def AdjustsToDecimalSum (i : Instr) (y : Byte) (cin : Bool) (s : State) : Prop :=
  ∃ t u, exec i s = .next t ∧ exec .daa t = .next u ∧ isBcd u.a = true ∧
    100 * (u.flag .c).toNat + bcdValue u.a = bcdValue s.a + bcdValue y + cin.toNat

/-- The codes of page 0 that select no instruction (30_encoding.md R112(a)). -/
def illegalPage0 : List Nat :=
  [0x00, 0x41, 0x42, 0x45, 0x4B, 0x4E, 0x51, 0x52, 0x55, 0x5B, 0x5E, 0x61, 0x62, 0x65, 0x6B, 0x71, 0x72, 0x75, 0x7B,
    0x87, 0xC7]

/-- The second bytes that 30_encoding.md R110 lists after 0x18. -/
def legalAfter18 : List Nat :=
  [0x08, 0x09, 0x1C, 0x1D, 0x1E, 0x1F, 0x30, 0x35, 0x38, 0x3A, 0x3C] ++
  [0x60, 0x63, 0x64, 0x66, 0x67, 0x68, 0x69, 0x6A, 0x6C, 0x6D, 0x6E, 0x6F, 0x8C, 0x8F, 0x9C] ++
  [0xA0, 0xA1, 0xA2, 0xA3, 0xA4, 0xA5, 0xA6, 0xA7, 0xA8, 0xA9, 0xAA, 0xAB, 0xAC, 0xAD, 0xAE, 0xAF] ++
  [0xBC, 0xCE, 0xDE, 0xDF] ++
  [0xE0, 0xE1, 0xE2, 0xE3, 0xE4, 0xE5, 0xE6, 0xE7, 0xE8, 0xE9, 0xEA, 0xEB, 0xEC, 0xED, 0xEE, 0xEF, 0xFE, 0xFF]

/-- The second bytes that 30_encoding.md R111 lists after 0x1A. -/
def legalAfter1A : List Nat := [0x83, 0x93, 0xA3, 0xAC, 0xB3, 0xEE, 0xEF]

/-- The second bytes that 30_encoding.md R111 lists after 0xCD. -/
def legalAfterCD : List Nat := [0xA3, 0xAC, 0xEE, 0xEF]

end Sys2Proof.Machine

open Sys2Proof Sys2Proof.Machine

/-! ## Encoding -/

/-- 30_encoding.md R94, R96, R107: what the encoder writes for a well-formed instruction, the decoder reads back, every
operand with every value, whatever bytes follow: with the spec's default OPCODE_MAP, and with every table that has one row
for an opcode byte, three prebytes and the spec's operand forms (00_scope.md R7). The encoder of the default table, written
from the `Encoding:` lines, writes what the encoder of any table gives for the default one. -/
def Obligations.DecodeReadsBackEveryEncoding : Prop :=
  (∀ (i : Instr) (rest : List Byte), i.wf = true →
    decode defaultOpcodeMap (encode i ++ rest) = .ok (i, rest) ∧ encodeWith defaultOpcodeMap i = some (encode i)) ∧
  ∀ (m : OpcodeMap) (i : Instr) (bs rest : List Byte), m.wf = true → encodeWith m i = some bs →
    decode m (bs ++ rest) = .ok (i, rest)

/-- 30_encoding.md R91, R96: with every OPCODE_MAP, the bytes the decoder takes for an instruction are a row's prebyte and
opcode with that instruction's operand bytes, the row is one for the instruction's mnemonic and addressing mode, and the
instruction is one the spec gives that form. With the default they are the bytes the encoder writes. -/
def Obligations.DecodedBytesAreTheEncoding : Prop :=
  ∀ (m : OpcodeMap) (bs : List Byte) (i : Instr) (rest : List Byte), decode m bs = .ok (i, rest) →
    i.wf = true ∧
    (∃ pre op, ⟨op, i.parts.mnemonic, i.parts.mode⟩ ∈ m.cells pre ∧ bs = rowBytes pre op i.parts.operands ++ rest) ∧
    (m = defaultOpcodeMap → encode i ++ rest = bs)

/-- 30_encoding.md R112 and R113, the set of illegal encodings of the default OPCODE_MAP, which the spec marks as general
knowledge (log 1, log 15). -/
def Obligations.IllegalCodesAreTheListedOnes : Prop :=
  ∀ b0 b1 b2 b3 b4 : Byte,
    (∃ r, decode defaultOpcodeMap [b0, b1, b2, b3, b4] = .ok r) ↔
      (if b0 = 0x18#8 then b1.toNat ∈ legalAfter18
       else if b0 = 0x1A#8 then b1.toNat ∈ legalAfter1A
       else if b0 = 0xCD#8 then b1.toNat ∈ legalAfterCD
       else b0.toNat ∉ illegalPage0)

/-- 30_encoding.md R109 to R111: words written out from the tables decode to the instructions they stand for (the
default OPCODE_MAP, log 1). -/
def Obligations.WrittenWordsDecode : Prop :=
  decode defaultOpcodeMap [0x8B, 0x12] = .ok (.adda (.imm 0x12), []) ∧
  decode defaultOpcodeMap [0x18, 0xA4, 0x10] = .ok (.anda (.mem (.indy 0x10)), []) ∧
  decode defaultOpcodeMap [0xCE, 0x12, 0x34] = .ok (.ldx (.imm 0x1234), []) ∧
  decode defaultOpcodeMap [0xB7, 0x12, 0x34] = .ok (.staa (.ext 0x1234), []) ∧
  decode defaultOpcodeMap [0x26, 0xFE] = .ok (.bne 0xFE, []) ∧
  decode defaultOpcodeMap [0x18, 0x1E, 0x00, 0x81, 0x05] = .ok (.brset (.indy 0x00) 0x81 0x05, []) ∧
  decode defaultOpcodeMap [0x1A, 0xB3, 0x12, 0x34] = .ok (.cpd (.mem (.ext 0x1234)), []) ∧
  decode defaultOpcodeMap [0x0E] = .ok (.cli, [])

/-- 30_encoding.md R90 and R95: the fetch of an instruction reads its prebyte, if any, its opcode and its operand bytes,
one to five in all and no more, and leaves PC at `pc_next`, the start address plus their number, modulo 65536. -/
def Obligations.InstructionLengthGivesTheNextAddress : Prop :=
  ∀ (s : State) (i : Instr) (rest : List Byte), decode s.cfg.opcodeMap (fetchBytes s) = .ok (i, rest) →
    let prebytes := if s.cfg.opcodeMap.isPrebyte (peek s.pc s) = true then 1 else 0
    let length := prebytes + 1 + i.parts.operands.length
    rest = [] ∧ (fetchBytes s).length = length ∧ 1 ≤ length ∧ length ≤ 5 ∧
      (fetched s).pc.toNat = (s.pc.toNat + length) % 65536

/-! ## The step -/

/-- 60_exceptions.md R334 step 4, 30_encoding.md R96 and 10_state.md R27: at a boundary that brings no event, a step is the
meaning of the instruction the bytes at PC decode to by the configured OPCODE_MAP, after the fetch has read them and moved
PC past them. -/
def Obligations.StepRunsTheDecodedInstruction : Prop :=
  ∀ (s : State) (i : Instr) (rest : List Byte), s.executes →
    decode s.cfg.opcodeMap (fetchBytes s.atBoundary) = .ok (i, rest) →
      let n := (fetchBytes s.atBoundary).length
      step s = exec i (fetched s.atBoundary) ∧
        fetched s.atBoundary = { touchBytes n s.pc s.atBoundary with pc := s.pc + BitVec.ofNat 16 n }

/-- 20_memory.md R68 and R74, 60_exceptions.md R334: where bytes that are one instruction by the configured OPCODE_MAP stand
in RAM or ROM at PC, a step that brings no event is its meaning, and the fetch changes nothing but PC. -/
def Obligations.StepRunsTheInstructionInMemory : Prop :=
  ∀ (s : State) (i : Instr) (bs : List Byte), s.executes → decode s.cfg.opcodeMap bs = .ok (i, []) →
    s.inMemory s.pc bs.length = true → s.memBytes s.pc bs.length = bs →
      step s = exec i { s.atBoundary with pc := s.pc + BitVec.ofNat 16 bs.length }

/-- 60_exceptions.md R330 and 20_memory.md R63: among the events that divert control there is no bus error, no access fault
and no divide trap. Every instruction in every state, and every step, answers a next state. That the model never refuses
is its choice: R62, R63 and R68 of 20_memory.md and R340 of 60_exceptions.md offer a refusal or a fault of the program
instead, for an access to nothing, a write to ROM, a fetch from I/O and an illegal code (log 8, log 15, log 24, log 26). -/
def Obligations.NothingStopsTheMachine : Prop :=
  (∀ (i : Instr) (s : State), ∃ t, exec i s = .next t) ∧ ∀ s : State, ∃ t, step s = .next t

/-- The invariant of Safety.lean is kept by every step, from every state that has it. -/
def Obligations.StepKeepsTheInvariant : Prop := ∀ s t : State, s.Inv → step s = .next t → t.Inv

/-- The state after reset has the invariant. -/
def Obligations.ResetStateHasTheInvariant : Prop := State.reset.Inv

/-- 20_memory.md R63 (D26) and 00_scope.md R14: no step changes a byte that is not RAM, nor the configuration. That a
write to ROM is discarded is the model's choice between the two the spec offers (log 8). -/
def Obligations.StepKeepsRomAndConfiguration : Prop :=
  ∀ s t : State, step s = .next t → t.cfg = s.cfg ∧ ∀ x, s.kind x ≠ .ram → t.memByte x = s.memByte x

/-- 60_exceptions.md R333: the CPU does not withdraw a request by taking it. A step leaves the lines as sampled; that a
reset's own line is withdrawn by taking it is the model's choice (log 10). -/
def Obligations.TakingARequestDoesNotWithdrawIt : Prop :=
  ∀ s t : State, step s = .next t →
    t.script = (sample s).script ∧
      t.lines = match s.event with
        | .reset _ => { (sample s).lines with reset := none }
        | .interrupt _ _ | .wake _ _ | .resume | .idle | .execute => (sample s).lines

/-! ## The condition code register as a whole -/

/-- 10_state.md R38, the whole table: what every instruction's flags column says of H, N, Z, V, C comes true, and TAP and
RTI load all five. -/
def Obligations.FlagsColumnHoldsForEveryInstruction : Prop :=
  ∀ (i : Instr) (s : State), ∃ t, exec i s = .next t ∧
    (flagColumn i).h.Says (s.flag .h) (t.flag .h) ∧ (flagColumn i).n.Says (s.flag .n) (t.flag .n) ∧
    (flagColumn i).z.Says (s.flag .z) (t.flag .z) ∧ (flagColumn i).v.Says (s.flag .v) (t.flag .v) ∧
    (flagColumn i).c.Says (s.flag .c) (t.flag .c) ∧
    (i = .tap → ∀ f ∈ [Flag.h, .n, .z, .v, .c], t.flag f = getFlag s.a f) ∧
    (i = .rti → ∀ f ∈ [Flag.h, .n, .z, .v, .c], t.flag f = getFlag (peek (s.sp + 1) s) f)

/-- 10_state.md R39, an inference the spec draws from R34, R36 and R37: an instruction changes I only if it is SEI, SWI,
CLI, TAP or RTI, X only downwards and only if it is TAP or RTI, S only if it is TAP or RTI. -/
def Obligations.MaskBitsChangeOnlyByTheListedInstructions : Prop :=
  ∀ (i : Instr) (s t : State), exec i s = .next t →
    (t.flag .i ≠ s.flag .i → i ∈ [Instr.sei, .swi, .cli, .tap, .rti]) ∧
    (t.flag .x ≠ s.flag .x → i ∈ [Instr.tap, .rti] ∧ t.flag .x = false) ∧
    (t.flag .s ≠ s.flag .s → i ∈ [Instr.tap, .rti])

/-- 10_state.md R36: X masks XIRQ; any reset sets it; the XIRQ entry sets X and I after the registers are stacked; X goes
from 0 to 1 by these two alone, and from 1 to 0 by a TAP with that bit of A at 0 or an RTI with that bit of the stacked
byte at 0 alone. -/
def Obligations.XMaskIsSetOnlyByHardware : Prop :=
  ∀ s t : State, step s = .next t →
    (s.flag .x = true → s.event ≠ .interrupt xirqVector true ∧ s.event ≠ .wake xirqVector true) ∧
    (∀ cause, s.event = .reset cause → t.flag .x = true) ∧
    (s.event = .interrupt xirqVector true →
      HoldsFrame s.pc s.atBoundary t ∧ t.flag .x = true ∧ t.flag .i = true) ∧
    (s.flag .x = false → t.flag .x = true →
      (∃ cause, s.event = .reset cause) ∨ s.event = .interrupt xirqVector true ∨ s.event = .wake xirqVector true) ∧
    (s.flag .x = true → t.flag .x = false →
      s.event = .execute ∧ ∃ i rest, decode s.cfg.opcodeMap (fetchBytes s.atBoundary) = .ok (i, rest) ∧
        (i = .tap ∧ getFlag s.a .x = false ∨
          i = .rti ∧ getFlag (peek (s.sp + 1) (fetched s.atBoundary)) .x = false))

/-- 10_state.md R37: with S set, STOP only advances PC; with S clear it stops the CPU; a reset sets S; and a step changes
S by TAP, RTI or a reset alone. -/
def Obligations.StopDisableGuardsStop : Prop :=
  (∀ s : State, s.flag .s = true → Runs .stop s [] [] [] s fun _ => True) ∧
  (∀ s : State, s.flag .s = false → ∃ t, exec .stop s = .next t ∧ t.run = .stopped ∧ t.pc = s.pc ∧
    Frame [] [] [] s t ∧ t.lateClear = s.lateClear ∧ SameAccesses s t) ∧
  ∀ s t : State, step s = .next t →
    (∀ cause, s.event = .reset cause → t.flag .s = true) ∧
    (t.flag .s ≠ s.flag .s → (∃ cause, s.event = .reset cause) ∨
      s.event = .execute ∧ ∃ i rest, decode s.cfg.opcodeMap (fetchBytes s.atBoundary) = .ok (i, rest) ∧ i ∈ [Instr.tap, .rti])

/-! ## Interrupts, traps and reset -/

/-- 60_exceptions.md R336, the entry sequence, with R332, R338 and R340: an interrupt taken at a boundary returns to the
instruction at PC; SWI, whatever I and X are, goes through 0xFFF6 and returns to `pc_next`; the illegal-opcode trap returns
to `ILLOP_RETURN`, the first byte or the one after the opcode byte, of which R340 (D8) leaves the choice open and presumes
the default (log 15). In Test or Boot mode the vector stands 0x4000 lower, by the spec's own decision D20 (R332; log 21). -/
def Obligations.EntrySequenceStacksAndVectors : Prop :=
  (∀ (s : State) (vector : Word) (setX : Bool), s.event = .interrupt vector setX →
    ∃ t, step s = .next t ∧ Entered vector setX s.pc s.atBoundary t) ∧
  (∀ s : State, ∃ t, exec .swi s = .next t ∧ Entered 0xFFF6#16 false s.pc s t) ∧
  (∀ (s : State) (e : DecodeError), s.executes →
    decode s.cfg.opcodeMap (fetchBytes s.atBoundary) = .error e →
    ∃ t, step s = .next t ∧
      Entered 0xFFF8#16 false
        (match s.cfg.illopReturn with
          | .firstByte => s.pc
          | .afterOpcode => s.pc + if s.cfg.opcodeMap.isPrebyte (peek s.pc s.atBoundary) = true then 2 else 1)
        (fetched s.atBoundary) t)

/-- 60_exceptions.md R334, the boundary of a running CPU, in the order the rule gives. That requests and resets are looked
at there and nowhere else is the spec's decision D24 (log 22), XIRQ ahead of the maskable sources its decision D7 (log 13),
and the choice at the boundary after a CLI or TAP its decision D21 (log 12); the head of the list is the arbiter's choice
(log 11). -/
def Obligations.RunningBoundaryFollowsTheRecognitionOrder : Prop :=
  ∀ s : State, s.run = .running →
    (∀ cause, (sample s).lines.reset = some cause → s.event = .reset cause) ∧
    ((sample s).lines.reset = none →
      ((sample s).lines.xirq = true → s.flag .x = false → s.event = .interrupt 0xFFF4#16 true) ∧
      ((sample s).lines.xirq = false ∨ s.flag .x = true →
        (s.flag .i = true → s.event = .execute) ∧
        ((sample s).lines.maskable = [] → s.event = .execute) ∧
        (∀ source rest, s.flag .i = false → (sample s).lines.maskable = source :: rest →
          s.event = if s.lateClear = true ∧ (sample s).lines.holdOff = true then .execute
            else .interrupt (irqVector source) false)))

/-- 60_exceptions.md R332, R330 and 20_memory.md R72: the vectors of the maskable sources, and `vec` in both modes. In
Test or Boot mode the page of the vectors that are no reset vectors is the spec's choice D20 (log 21). -/
def Obligations.VectorsStandAtTheListedAddresses : Prop :=
  [IrqSource.irq, .realTime, .inputCapture1, .inputCapture2, .inputCapture3, .outputCapture1, .outputCapture2,
    .outputCapture3, .outputCapture4, .outputCapture5, .timerOverflow, .pulseAccumulatorOverflow,
    .pulseAccumulatorEdge, .spi, .sci].map (fun q => (irqVector q).toNat) =
    (List.range 15).map (fun k => 0xFFF2 - 2 * k) ∧
  ∀ v : Word, vec .normal v = v ∧ (0x4000 ≤ v.toNat → (vec .testOrBoot v).toNat + 0x4000 = v.toNat)

/-- 60_exceptions.md R343 and 44_jump_branch.md R304: RTI restores CCR, B, A, IX, IY and PC from the nine bytes above SP,
in ascending order, whatever they are; X cannot go from 0 to 1; I is what the stacked byte says. -/
def Obligations.RtiRestoresFromTheStack : Prop :=
  ∀ s : State, ∃ t c, exec .rti s = .next t ∧
    readBytes 9 (s.sp + 1) s =
      [c, t.b, t.a, hiByte t.ix, loByte t.ix, hiByte t.iy, loByte t.iy, hiByte t.pc, loByte t.pc] ∧
    (∀ f, t.flag f = if f = .x then s.flag .x && getFlag c .x else getFlag c f) ∧
    t.sp = s.sp + 9 ∧
    Frame [.a, .b, .ix, .iy, .sp] [.s, .x, .h, .i, .n, .z, .v, .c] [] s t ∧ SameRun s t ∧
    SameAccesses (touchBytes 9 (s.sp + 1) s) t

/-- 60_exceptions.md R336 with R343: where the nine bytes from SP down are RAM, an RTI right after an entry restores
every register, the CCR and SP, and goes to the return address; memory is as the entry left it. -/
def Obligations.EntryThenReturnRestoresTheContext : Prop :=
  ∀ (s : State) (vector ret : Word) (setX : Bool), s.stackRoom 9 = true →
    ∃ u, exec .rti (takeInterrupt vector setX ret s) = .next u ∧
      u.a = s.a ∧ u.b = s.b ∧ u.ix = s.ix ∧ u.iy = s.iy ∧ u.sp = s.sp ∧ u.ccr = s.ccr ∧ u.pc = ret ∧
      ∀ x, x ∉ frameAddresses s → u.memByte x = s.memByte x

/-- 44_jump_branch.md R308: WAI stacks the nine bytes with `pc_next` and waits. The early stacking is the spec's
decision D9 (log 14). -/
def Obligations.WaiStacksAndWaits : Prop :=
  ∀ s : State, ∃ t, exec .wai s = .next t ∧ HoldsFrame s.pc s t ∧ t.pc = s.pc ∧
    t.run = .waiting ∧ t.lateClear = s.lateClear ∧ Frame [.sp] [] (frameAddresses s) s t ∧
    SameAccesses (stackFrame s.pc s) t

/-- 60_exceptions.md R352(b): in Waiting no instruction executes; XIRQ with X = 0, else a maskable request with I = 0,
ends the wait through its vector without a second stacking; a masked request does not. The spec's decision D9
(log 14). -/
def Obligations.WaitEndsWithoutASecondStacking : Prop :=
  ∀ s : State, s.run = .waiting → (sample s).lines.reset = none →
    ((sample s).lines.xirq = true → s.flag .x = false →
      ∃ t, step s = .next t ∧ WokenUp 0xFFF4#16 true s.atBoundary t) ∧
    (∀ source rest, (sample s).lines.xirq = false ∨ s.flag .x = true → s.flag .i = false →
      (sample s).lines.maskable = source :: rest →
      ∃ t, step s = .next t ∧ WokenUp (irqVector source) false s.atBoundary t) ∧
    ((sample s).lines.xirq = false ∨ s.flag .x = true → s.flag .i = true ∨ (sample s).lines.maskable = [] →
      step s = .next s.atBoundary)

/-- 60_exceptions.md R352(c): what ends STOP and how, XIRQ with X = 0, XIRQ with X = 1, IRQ with I = 0, and nothing else.
The spec's decision D10 (log 14). -/
def Obligations.StopEndsAsTheSpecDecides : Prop :=
  ∀ s : State, s.run = .stopped → (sample s).lines.reset = none →
    ((sample s).lines.xirq = true → s.flag .x = false →
      ∃ t, step s = .next t ∧ Entered 0xFFF4#16 true s.pc s.atBoundary t) ∧
    ((sample s).lines.xirq = true → s.flag .x = true → step s = .next { s.atBoundary with run := .running }) ∧
    ((sample s).lines.xirq = false → s.flag .i = false → .irq ∈ (sample s).lines.maskable →
      ∃ t, step s = .next t ∧ Entered 0xFFF2#16 false s.pc s.atBoundary t) ∧
    ((sample s).lines.xirq = false → s.flag .i = true ∨ .irq ∉ (sample s).lines.maskable →
      step s = .next s.atBoundary)

/-- 70_reset_and_hazards.md R381: after a reset PC is the word at one of six vectors, by mode and cause. -/
def Obligations.ResetLoadsOneOfSixVectors : Prop :=
  ∀ (s : State) (cause : ResetCause), s.event = .reset cause → ∃ t, step s = .next t ∧
    (s.inMemory (resetCell s.cfg.mode cause) 2 = true →
      (hiByte t.pc = t.memByte (resetCell s.cfg.mode cause) ∧
        loByte t.pc = t.memByte (resetCell s.cfg.mode cause + 1)))

/-- 70_reset_and_hazards.md R380 and 10_state.md R45: a reset sets I, X and S, makes the CPU run, records its cause and
stacks nothing. The ten values no source gives, A, B, IX, IY, SP and H, N, Z, V, C, are drawn afresh, each a free value
(D6; log 6). RAM holds no value after power-on, and none after another reset unless the launch premise says it keeps its
content: each byte of it then reads as a new free value (D22; log 5, log 6). ROM keeps its bytes. -/
def Obligations.ResetForcesTheMasksAndDrawsTheRest : Prop :=
  ∀ (s : State) (cause : ResetCause), s.event = .reset cause → ∃ t, step s = .next t ∧
    t.flag .i = true ∧ t.flag .x = true ∧ t.flag .s = true ∧ t.run = .running ∧ t.lastReset = cause ∧
    t.lateClear = false ∧ t.cfg = s.cfg ∧
    t.a = (Config.draw s.draws).setWidth 8 ∧ t.b = (Config.draw (s.draws + 1)).setWidth 8 ∧
    t.ix = Config.draw (s.draws + 2) ∧ t.iy = Config.draw (s.draws + 3) ∧ t.sp = Config.draw (s.draws + 4) ∧
    (∀ f ∈ [Flag.h, .n, .z, .v, .c], t.flag f = getFlag ((Config.draw (s.draws + 5)).setWidth 8) f) ∧
    s.draws + 6 ≤ t.draws ∧
    (∀ x, s.kind x ≠ .ram → t.memByte x = s.memByte x) ∧
    (∀ x, s.kind x = .ram →
      t.memByte x = if s.cfg.ramRetained = true ∧ cause ≠ .powerOn then s.memByte x
        else Config.unwritten (s.generation + 1) x)

/-- 10_state.md R45 and 20_memory.md R61: the state after reset has the masks and S set, the CPU running and no byte of
memory listed. (The zeros of the registers and the PC are the model's choice, log 3 and log 4, and are not stated.) -/
def Obligations.ResetStateHasTheMasksSet : Prop :=
  State.reset.flag .i = true ∧ State.reset.flag .x = true ∧ State.reset.flag .s = true ∧
    State.reset.run = .running ∧ State.reset.mem = []

/-! ## Memory, operands and the stack -/

/-- 20_memory.md R62, R63 and R66: a store to RAM is read back and leaves every other byte; ROM and nothing discard it
(D26, log 8); a device is handed it and no byte of memory changes; a read of a device is recorded, a read of nothing
uses up a free value (log 8). -/
def Obligations.StoreReachesItsAddressAlone : Prop :=
  ∀ (s : State) (x y : Word) (v : Byte),
    (s.kind x = .ram → peek x (store x v s) = v ∧ (store x v s).io = s.io) ∧
    (y ≠ x → (store x v s).memByte y = s.memByte y) ∧
    (s.kind x = .rom ∨ s.kind x = .nothing → store x v s = s) ∧
    (s.kind x = .io → store x v s = { s with io := .write x v :: s.io }) ∧
    (s.isMemory x = true → peek x s = s.memByte x ∧ touch x s = s) ∧
    (s.kind x = .io → touch x s = { s with io := .read x :: s.io }) ∧
    (s.kind x = .nothing → touch x s = { s with draws := s.draws + 1 })

/-- 20_memory.md R64 and R65: a word has its high byte at the lower address, which is accessed first (D3, log 20); the
address after 0xFFFF is 0x0000 (D4, log 19). -/
def Obligations.WordsAreHighByteFirst : Prop :=
  ∀ (s : State) (x v : Word),
    (s.inMemory x 2 = true →
      (peek16 x s).toNat = 256 * (s.memByte x).toNat + (s.memByte (x + 1)).toNat) ∧
    (s.kind x = .ram → s.kind (x + 1) = .ram →
      ((store16 x v s).memByte x).toNat = v.toNat / 256 ∧ ((store16 x v s).memByte (x + 1)).toNat = v.toNat % 256 ∧
      peek16 x (store16 x v s) = v) ∧
    (s.kind x = .io → s.kind (x + 1) = .io →
      (store16 x v s).io = .write (x + 1) (loByte v) :: .write x (hiByte v) :: s.io ∧
      (touch16 x s).io = .read (x + 1) :: .read x :: s.io) ∧
    (x + 1).toNat = (x.toNat + 1) % 65536

/-- 30_encoding.md R100 to R104: the effective addresses in numbers, and the operand a form stands for. -/
def Obligations.OperandsAreReadAtTheEffectiveAddress : Prop :=
  ∀ s : State,
    (∀ dd, (effAddr (.dir dd) s).toNat = dd.toNat) ∧
    (∀ hh ll, (effAddr (.ext (join hh ll)) s).toNat = 256 * hh.toNat + ll.toNat) ∧
    (∀ ff, (effAddr (.indx ff) s).toNat = (s.ix.toNat + ff.toNat) % 65536) ∧
    (∀ ff, (effAddr (.indy ff) s).toNat = (s.iy.toNat + ff.toNat) % 65536) ∧
    (∀ ii, operand8 (.imm ii) s = ii ∧ afterOperand8 (.imm ii) s = s) ∧
    (∀ jjkk, operand16 (.imm jjkk) s = jjkk ∧ afterOperand16 (.imm jjkk) s = s) ∧
    (∀ m, s.isMemory (effAddr m s) = true →
      operand8 (.mem m) s = s.memByte (effAddr m s) ∧ afterOperand8 (.mem m) s = s) ∧
    (∀ m, s.inMemory (effAddr m s) 2 = true →
      (operand16 (.mem m) s).toNat =
        256 * (s.memByte (effAddr m s)).toNat + (s.memByte (effAddr m s + 1)).toNat ∧
      afterOperand16 (.mem m) s = s)

/-- 20_memory.md R70 and R71: a pull after a push gives the byte back and SP is as before; the word pushed stands high
byte first at SP + 1. -/
def Obligations.PullUndoesPush : Prop :=
  ∀ (s : State) (v : Byte) (w : Word),
    (s.kind s.sp = .ram → pullValue (push v s) = v ∧ (pulled (push v s)).sp = s.sp) ∧
    (s.stackRoom 2 = true →
      pullWordValue (pushWord w s) = w ∧ (pulledWord (pushWord w s)).sp = s.sp ∧
      peek16 ((pushWord w s).sp + 1) (pushWord w s) = w)

/-- 10_state.md R22: D is A:B; writing D writes both, writing A or B changes one half. -/
def Obligations.DoubleAccumulatorIsBothHalves : Prop :=
  ∀ (s : State) (w : Word) (v : Byte),
    (s.reg16 .d).toNat = 256 * s.a.toNat + s.b.toNat ∧
    256 * (s.setReg16 .d w).a.toNat + (s.setReg16 .d w).b.toNat = w.toNat ∧
    ((s.setAcc .a v).reg16 .d).toNat = 256 * v.toNat + s.b.toNat ∧
    ((s.setAcc .b v).reg16 .d).toNat = 256 * s.a.toNat + v.toNat

/-! ## Arithmetic -/

/-- 40_arithmetic.md R136 to R140 by the add law R130: ABA, ADCA, ADCB, ADDA, ADDB. -/
def Obligations.AdditionsFollowTheAddLaw : Prop :=
  ∀ (s : State) (op : Operand8),
    Adds .aba .a (.imm s.b) false s ∧ Adds (.adca op) .a op (s.flag .c) s ∧ Adds (.adcb op) .b op (s.flag .c) s ∧
      Adds (.adda op) .a op false s ∧ Adds (.addb op) .b op false s

/-- 40_arithmetic.md R142 to R144 and R159 to R163 by the subtract law R131: SBA, SBCA, SBCB, SUBA, SUBB, and the
comparisons CBA, CMPA, CMPB, which keep the accumulator. -/
def Obligations.SubtractionsFollowTheSubtractLaw : Prop :=
  ∀ (s : State) (op : Operand8),
    Subtracts .sba .a (.imm s.b) false s ∧ Subtracts (.sbca op) .a op (s.flag .c) s ∧
      Subtracts (.sbcb op) .b op (s.flag .c) s ∧ Subtracts (.suba op) .a op false s ∧
      Subtracts (.subb op) .b op false s ∧
      Compares .cba .a (.imm s.b) s ∧ Compares (.cmpa op) .a op s ∧ Compares (.cmpb op) .b op s

/-- 40_arithmetic.md R141, R145, R164 and 42_index_stack.md R222, R223 by the 16-bit laws R132 and R133: ADDD, SUBD, CPD,
CPX, CPY. -/
def Obligations.WordArithmeticFollowsTheWordLaws : Prop :=
  ∀ (s : State) (op : Operand16),
    (Runs (.addd op) s [.a, .b] [.n, .z, .v, .c] [] (afterOperand16 op s) fun t =>
      AddLaw 16 (s.reg16 .d) (operand16 op s) false (t.reg16 .d) t) ∧
    (Runs (.subd op) s [.a, .b] [.n, .z, .v, .c] [] (afterOperand16 op s) fun t =>
      SubLaw 16 (s.reg16 .d) (operand16 op s) false (t.reg16 .d) t) ∧
    Compares16 (.cpd op) .d op s ∧ Compares16 (.cpx op) .x op s ∧ Compares16 (.cpy op) .y op s

/-- 40_arithmetic.md R147 to R149 and R152 to R154: INC and DEC in memory and in the accumulators. C is kept. -/
def Obligations.IncrementsAndDecrementsKeepCarry : Prop :=
  ∀ (s : State) (m : Mem),
    Modifies (.inc m) m [.n, .z, .v] s IncrementLaw ∧ Rewrites .inca .a [.n, .z, .v] s IncrementLaw ∧
      Rewrites .incb .b [.n, .z, .v] s IncrementLaw ∧
    Modifies (.dec m) m [.n, .z, .v] s DecrementLaw ∧ Rewrites .deca .a [.n, .z, .v] s DecrementLaw ∧
      Rewrites .decb .b [.n, .z, .v] s DecrementLaw

/-- 40_arithmetic.md R156 to R158: NEG, NEGA, NEGB. C is set exactly when the operand was not 0, V exactly when it was
0x80. -/
def Obligations.NegationsSubtractFromZero : Prop :=
  ∀ (s : State) (m : Mem),
    Modifies (.neg m) m [.n, .z, .v, .c] s NegateLaw ∧ Rewrites .nega .a [.n, .z, .v, .c] s NegateLaw ∧
      Rewrites .negb .b [.n, .z, .v, .c] s NegateLaw

/-- 40_arithmetic.md R165 to R167 and 43_data_transfer.md R260 to R262: TST reads and sets flags alone; CLR writes zero
without a read of the effective address (log 29). -/
def Obligations.TestsAndClearsSetFixedFlags : Prop :=
  ∀ (s : State) (m : Mem),
    Runs (.tst m) s [] [.n, .z, .v, .c] [] (touch (effAddr m s) s) (TestLaw (peek (effAddr m s) s)) ∧
    Runs .tsta s [] [.n, .z, .v, .c] [] s (TestLaw s.a) ∧ Runs .tstb s [] [.n, .z, .v, .c] [] s (TestLaw s.b) ∧
    (Runs (.clr m) s [] [.n, .z, .v, .c] [effAddr m s] (store (effAddr m s) 0#8 s) fun t =>
      Stored s t (effAddr m s) 0#8 ∧ ClearLaw t) ∧
    (Runs .clra s [.a] [.n, .z, .v, .c] [] s fun t => t.a = 0#8 ∧ ClearLaw t) ∧
    (Runs .clrb s [.b] [.n, .z, .v, .c] [] s fun t => t.b = 0#8 ∧ ClearLaw t)

/-- 40_arithmetic.md R146: DAA. The carry out of the first correction counts as C for the second test by the spec's
decision D2 (log 17); of V nothing is said. -/
def Obligations.DecimalAdjustCorrectsBothDigits : Prop :=
  ∀ s : State, Runs .daa s [.a] [.n, .z, .v, .c] [] s.drawn fun t =>
    let low := if s.flag .h = true ∨ 9 < s.a.toNat % 16 then s.a.toNat + 6 else s.a.toNat
    let high := s.flag .c = true ∨ 256 ≤ low ∨ 9 < low / 16 % 16
    t.a.toNat = (if high then low + 0x60 else low) % 256 ∧ (t.flag .c = true ↔ high) ∧
      t.flag .n = t.a.msb ∧ t.flag .z = decide (t.a = 0#8)

/-- 40_arithmetic.md R146 with R130: after ADCA or ADDA of two decimal bytes, in every operand form, or ABA of them, DAA
leaves the decimal sum in C:A. That holds by the spec's decision D2, its own choice, that the carry out of the first
correction counts for the second (log 17): of 0x99 and 0x61, for one. -/
def Obligations.DecimalAdjustGivesTheDecimalSum : Prop :=
  ∀ (s : State) (op : Operand8), isBcd s.a = true →
    (isBcd (operand8 op s) = true → AdjustsToDecimalSum (.adca op) (operand8 op s) (s.flag .c) s ∧
      AdjustsToDecimalSum (.adda op) (operand8 op s) false s) ∧
    (isBcd s.b = true → AdjustsToDecimalSum .aba s.b false s)

/-- 40_arithmetic.md R155: MUL. C is bit 7 of the product by the spec's decision D18 (log 16). -/
def Obligations.MultiplyGivesTheProduct : Prop :=
  ∀ s : State, Runs .mul s [.a, .b] [.c] [] s fun t =>
    256 * t.a.toNat + t.b.toNat = s.a.toNat * s.b.toNat ∧
      t.flag .c = decide (s.a.toNat * s.b.toNat / 128 % 2 = 1)

/-- 40_arithmetic.md R151: IDIV. On division by zero the quotient and the flags are the spec's decision D17 (log 16) and
the remainder is a free value (log 18). -/
def Obligations.IntegerDivideGivesQuotientAndRemainder : Prop :=
  ∀ s : State, Runs .idiv s [.a, .b, .ix] [.z, .v, .c] [] s.drawn fun t =>
    if s.ix = 0#16 then
      t.ix = 0xFFFF#16 ∧ t.flag .z = false ∧ t.flag .v = false ∧ t.flag .c = true
    else
      (s.reg16 .d).toNat = t.ix.toNat * s.ix.toNat + (t.reg16 .d).toNat ∧ (t.reg16 .d).toNat < s.ix.toNat ∧
        t.flag .z = decide (t.ix = 0#16) ∧ t.flag .v = false ∧ t.flag .c = false

/-- 40_arithmetic.md R150: FDIV. Where the quotient does not fit, the quotient and the flags are the spec's decision D17
(log 16) and the remainder is a free value (log 18). -/
def Obligations.FractionalDivideGivesTheFraction : Prop :=
  ∀ s : State, Runs .fdiv s [.a, .b, .ix] [.z, .v, .c] [] s.drawn fun t =>
    if s.ix = 0#16 then
      t.ix = 0xFFFF#16 ∧ t.flag .z = false ∧ t.flag .v = true ∧ t.flag .c = true
    else if s.ix.toNat ≤ (s.reg16 .d).toNat then
      t.ix = 0xFFFF#16 ∧ t.flag .z = false ∧ t.flag .v = true ∧ t.flag .c = false
    else
      (s.reg16 .d).toNat * 65536 = t.ix.toNat * s.ix.toNat + (t.reg16 .d).toNat ∧
        (t.reg16 .d).toNat < s.ix.toNat ∧
        t.flag .z = decide (t.ix = 0#16) ∧ t.flag .v = false ∧ t.flag .c = false

/-! ## Logic, bits, shifts and rotates -/

/-- 40_arithmetic.md R134 for the logic of 41_bitwise.md R181, R182, R187, R188, R193, R194, R203, R204: bit by bit, and
N, Z from the result, V cleared, H and C kept. -/
def Obligations.LogicWorksBitByBit : Prop :=
  ∀ (s : State) (op : Operand8),
    Combines (.anda op) .a op (· && ·) s ∧ Combines (.andb op) .b op (· && ·) s ∧
    Combines (.eora op) .a op xor s ∧ Combines (.eorb op) .b op xor s ∧
    Combines (.oraa op) .a op (· || ·) s ∧ Combines (.orab op) .b op (· || ·) s ∧
    (Runs (.bita op) s [] [.n, .z, .v] [] (afterOperand8 op s) (NzLaw 8 (s.a &&& operand8 op s))) ∧
    (Runs (.bitb op) s [] [.n, .z, .v] [] (afterOperand8 op s) (NzLaw 8 (s.b &&& operand8 op s)))

/-- 41_bitwise.md R186, R189 to R192: BCLR, BSET and COM, COMA, COMB; COM sets C, the others keep it. -/
def Obligations.BitClearSetAndComplement : Prop :=
  ∀ (s : State) (m : Mem) (mm : Byte),
    (Modifies (.bclr m mm) m [.n, .z, .v] s fun x r t => (∀ k : Fin 8, r[k] = (x[k] && !mm[k])) ∧ NzLaw 8 r t) ∧
    (Modifies (.bset m mm) m [.n, .z, .v] s fun x r t => (∀ k : Fin 8, r[k] = (x[k] || mm[k])) ∧ NzLaw 8 r t) ∧
    Modifies (.com m) m [.n, .z, .v, .c] s ComplementLaw ∧ Rewrites .coma .a [.n, .z, .v, .c] s ComplementLaw ∧
    Rewrites .comb .b [.n, .z, .v, .c] s ComplementLaw

/-- 41_bitwise.md R195 to R198 and R205 to R207 with R180: the left shifts and rotates double the operand, a rotate with
the old C at bit 0; bit 7 (or 15) leaves into C. V is N xor C by the spec's decision D19, from general knowledge (log
16). -/
def Obligations.LeftShiftsDouble : Prop :=
  ∀ (s : State) (m : Mem),
    Modifies (.lsl m) m [.n, .z, .v, .c] s (LeftLaw false) ∧ Rewrites .lsla .a [.n, .z, .v, .c] s (LeftLaw false) ∧
    Rewrites .lslb .b [.n, .z, .v, .c] s (LeftLaw false) ∧
    Modifies (.rol m) m [.n, .z, .v, .c] s (LeftLaw (s.flag .c)) ∧
    Rewrites .rola .a [.n, .z, .v, .c] s (LeftLaw (s.flag .c)) ∧
    Rewrites .rolb .b [.n, .z, .v, .c] s (LeftLaw (s.flag .c)) ∧
    (Runs .lsld s [.a, .b] [.n, .z, .v, .c] [] s fun t =>
      (t.reg16 .d).toNat = 2 * (s.reg16 .d).toNat % 65536 ∧
        ShiftLaw 16 (t.reg16 .d) (decide (32768 ≤ (s.reg16 .d).toNat)) t)

/-- 41_bitwise.md R183 to R185, R199 to R202 and R208 to R210 with R180: the right shifts and rotates halve the operand,
ASR as a signed number rounding down, ROR with the old C at bit 7; bit 0 leaves into C. V is N xor C by the spec's
decision D19 (log 16). -/
def Obligations.RightShiftsHalve : Prop :=
  ∀ (s : State) (m : Mem),
    Modifies (.lsr m) m [.n, .z, .v, .c] s (RightLaw false) ∧ Rewrites .lsra .a [.n, .z, .v, .c] s (RightLaw false) ∧
    Rewrites .lsrb .b [.n, .z, .v, .c] s (RightLaw false) ∧
    Modifies (.ror m) m [.n, .z, .v, .c] s (RightLaw (s.flag .c)) ∧
    Rewrites .rora .a [.n, .z, .v, .c] s (RightLaw (s.flag .c)) ∧
    Rewrites .rorb .b [.n, .z, .v, .c] s (RightLaw (s.flag .c)) ∧
    Modifies (.asr m) m [.n, .z, .v, .c] s SignedRightLaw ∧ Rewrites .asra .a [.n, .z, .v, .c] s SignedRightLaw ∧
    Rewrites .asrb .b [.n, .z, .v, .c] s SignedRightLaw ∧
    (Runs .lsrd s [.a, .b] [.n, .z, .v, .c] [] s fun t =>
      (t.reg16 .d).toNat = (s.reg16 .d).toNat / 2 ∧
        ShiftLaw 16 (t.reg16 .d) (decide ((s.reg16 .d).toNat % 2 = 1)) t)

/-- 41_bitwise.md R205 and R208: nine rotates left restore the byte and C, and a rotate right undoes a rotate left. -/
def Obligations.RotatesGoRoundInNineSteps : Prop :=
  let left (u : Res8) : Res8 := rotateLeft8 u.val u.ccr
  let right (u : Res8) : Res8 := rotateRight8 u.val u.ccr
  ∀ x ccr : Byte,
    let u : Res8 := ⟨x, ccr⟩
    (left (left (left (left (left (left (left (left (left u))))))))).val = x ∧
    getFlag (left (left (left (left (left (left (left (left (left u))))))))).ccr .c = getFlag ccr .c ∧
    (right (left u)).val = x ∧ getFlag (right (left u)).ccr .c = getFlag ccr .c ∧
    (left (right u)).val = x ∧ getFlag (left (right u)).ccr .c = getFlag ccr .c

/-! ## Loads, stores, index registers, stack and transfers -/

/-- 40_arithmetic.md R134 for the loads of 43_data_transfer.md R263 to R265 and 42_index_stack.md R230 to R232: LDAA,
LDAB, LDD, LDS, LDX, LDY. -/
def Obligations.LoadsFollowTheNzLaw : Prop :=
  ∀ (s : State) (op : Operand8) (op' : Operand16),
    Loads (.ldaa op) .a op s ∧ Loads (.ldab op) .b op s ∧ Loads16 (.ldd op') .d op' s ∧
    Loads16 (.lds op') .sp op' s ∧ Loads16 (.ldx op') .x op' s ∧ Loads16 (.ldy op') .y op' s

/-- 40_arithmetic.md R134 for the stores of 43_data_transfer.md R270 to R272 and 42_index_stack.md R237 to R239: STAA,
STAB, STD, STS, STX, STY. The flags come from the register. -/
def Obligations.StoresFollowTheNzLaw : Prop :=
  ∀ (s : State) (m : Mem),
    Stores (.staa m) .a m s ∧ Stores (.stab m) .b m s ∧ Stores16 (.std m) .d m s ∧ Stores16 (.sts m) .sp m s ∧
    Stores16 (.stx m) .x m s ∧ Stores16 (.sty m) .y m s

/-- 42_index_stack.md R220, R221, R225, R226, R228, R229: INX, DEX, INY, DEY set Z alone; ABX and ABY add B as an
unsigned number and set no flag. -/
def Obligations.IndexArithmeticWraps : Prop :=
  ∀ s : State,
    StepsIndex .inx .x 1 s ∧ StepsIndex .dex .x (-1) s ∧ StepsIndex .iny .y 1 s ∧ StepsIndex .dey .y (-1) s ∧
    Transfers .abx .x .x s.b.toNat s ∧ Transfers .aby .y .y s.b.toNat s

/-- 42_index_stack.md R224, R227, R240 to R245: INS, DES, TSX, TSY, TXS, TYS and the exchanges XGDX, XGDY; no flag
changes and no memory is accessed. -/
def Obligations.PointerTransfersOffsetByOne : Prop :=
  ∀ s : State,
    Transfers .ins .sp .sp 1 s ∧ Transfers .des .sp .sp (-1) s ∧
    Transfers .tsx .x .sp 1 s ∧ Transfers .tsy .y .sp 1 s ∧ Transfers .txs .sp .x (-1) s ∧
    Transfers .tys .sp .y (-1) s ∧
    (Runs .xgdx s [.a, .b, .ix] [] [] s fun t => t.ix = s.reg16 .d ∧ t.reg16 .d = s.ix) ∧
    (Runs .xgdy s [.a, .b, .iy] [] [] s fun t => t.iy = s.reg16 .d ∧ t.reg16 .d = s.iy)

/-- 43_data_transfer.md R266 to R269 and 42_index_stack.md R233 to R236: the pushes store at the old SP, the pulls read
above it, a word high byte first; no flag changes. -/
def Obligations.PushesAndPullsMoveTheStack : Prop :=
  ∀ s : State,
    Pushes .psha s.a s ∧ Pushes .pshb s.b s ∧ PushesWord .pshx s.ix s ∧ PushesWord .pshy s.iy s ∧
    (Runs .pula s [.a, .sp] [] [] (touch (s.sp + 1) s) fun t => t.a = peek (s.sp + 1) s ∧ t.sp = s.sp + 1) ∧
    (Runs .pulb s [.b, .sp] [] [] (touch (s.sp + 1) s) fun t => t.b = peek (s.sp + 1) s ∧ t.sp = s.sp + 1) ∧
    (Runs .pulx s [.ix, .sp] [] [] (touch16 (s.sp + 1) s) fun t =>
      t.ix = peek16 (s.sp + 1) s ∧ t.sp = s.sp + 2) ∧
    (Runs .puly s [.iy, .sp] [] [] (touch16 (s.sp + 1) s) fun t =>
      t.iy = peek16 (s.sp + 1) s ∧ t.sp = s.sp + 2)

/-- 43_data_transfer.md R273, R274 and 45_ccr.md R327: TAB and TBA set N and Z and clear V (C2 of 90_conflicts.md); TPA
copies the eight bits of the CCR and changes none. -/
def Obligations.AccumulatorTransfersCopy : Prop :=
  ∀ s : State,
    (Runs .tab s [.b] [.n, .z, .v] [] s fun t => t.b = s.a ∧ NzLaw 8 s.a t) ∧
    (Runs .tba s [.a] [.n, .z, .v] [] s fun t => t.a = s.b ∧ NzLaw 8 s.b t) ∧
    (Runs .tpa s [.a] [] [] s fun t => ∀ f, getFlag t.a f = s.flag f)

/-! ## Branches, jumps, subroutines and the CCR instructions -/

/-- 44_jump_branch.md R280 with the conditions of R281: each of the sixteen branches goes to the next address plus the
signed displacement, modulo 65536, where its condition holds, and to the next address where it does not. -/
def Obligations.BranchesGoToTheirTarget : Prop :=
  ∀ (s : State) (rr : Byte),
    let c := s.flag .c
    let z := s.flag .z
    let n := s.flag .n
    let v := s.flag .v
    Branches (.bra rr) rr true s s ∧ Branches (.brn rr) rr false s s ∧
    Branches (.bhi rr) rr (!c && !z) s s ∧ Branches (.bls rr) rr (c || z) s s ∧
    Branches (.bcc rr) rr (!c) s s ∧ Branches (.bcs rr) rr c s s ∧
    Branches (.bne rr) rr (!z) s s ∧ Branches (.beq rr) rr z s s ∧
    Branches (.bvc rr) rr (!v) s s ∧ Branches (.bvs rr) rr v s s ∧
    Branches (.bpl rr) rr (!n) s s ∧ Branches (.bmi rr) rr n s s ∧
    Branches (.bge rr) rr (n == v) s s ∧ Branches (.blt rr) rr (n != v) s s ∧
    Branches (.bgt rr) rr ((n == v) && !z) s s ∧ Branches (.ble rr) rr ((n != v) || z) s s

/-- 44_jump_branch.md R298 and R299: BRCLR branches where no bit under the mask is set, BRSET where every bit under the
mask is; the operand is read once, taken or not. -/
def Obligations.BitBranchesTestTheMaskedBits : Prop :=
  ∀ (s : State) (m : Mem) (mm rr : Byte),
    let x := peek (effAddr m s) s
    Branches (.brclr m mm rr) rr (decide (∀ k : Fin 8, mm[k] = true → x[k] = false)) (touch (effAddr m s) s) s ∧
    Branches (.brset m mm rr) rr (decide (∀ k : Fin 8, mm[k] = true → x[k] = true)) (touch (effAddr m s) s) s

/-- 44_jump_branch.md R281, last column, which the spec derives from R131 and R133: after a comparison or subtraction of
a register with an operand, the branches go the way the two numbers compare, unsigned and signed. -/
def Obligations.BranchesAfterCompareOrderTheOperands : Prop :=
  ∀ (s : State) (op : Operand8) (op' : Operand16) (rr : Byte),
    (∀ i ∈ [Instr.cmpa op, .suba op], ∃ t, exec i s = .next t ∧ OrdersBy 8 s.a (operand8 op s) rr t) ∧
    (∀ i ∈ [Instr.cmpb op, .subb op], ∃ t, exec i s = .next t ∧ OrdersBy 8 s.b (operand8 op s) rr t) ∧
    (∀ i ∈ [Instr.cpd op', .subd op'], ∃ t, exec i s = .next t ∧
      OrdersBy 16 (s.reg16 .d) (operand16 op' s) rr t) ∧
    (∃ t, exec (.cpx op') s = .next t ∧ OrdersBy 16 s.ix (operand16 op' s) rr t) ∧
    (∃ t, exec (.cpy op') s = .next t ∧ OrdersBy 16 s.iy (operand16 op' s) rr t)

/-- 44_jump_branch.md R300, R301, R302, R303 and R305: BSR and JSR push the next address and go to the target, JMP goes to
the effective address without a read, RTS pulls PC, NOP goes on. -/
def Obligations.JumpsCallsAndReturns : Prop :=
  ∀ (s : State) (m : Mem) (rr : Byte),
    Calls (.bsr rr) (BitVec.ofInt 16 (s.pc.toNat + rr.toInt)) s ∧
    Calls (.jsr m) (effAddr m s) s ∧
    (Jumps (.jmp m) s (effAddr m s) [] [] s fun _ => True) ∧
    (Jumps .rts s (peek16 (s.sp + 1) s) [.sp] [] (touch16 (s.sp + 1) s) fun t => t.sp = s.sp + 2) ∧
    (Runs .nop s [] [] [] s fun _ => True)

/-- 44_jump_branch.md R300, R302 and R305: where the two bytes at SP are RAM, an RTS right after a BSR or JSR goes on at
the instruction after the call with every register and SP as before. -/
def Obligations.ReturnUndoesCall : Prop :=
  ∀ (s : State) (m : Mem) (rr : Byte), s.stackRoom 2 = true →
    ∀ i ∈ [Instr.bsr rr, .jsr m], ∃ t u, exec i s = .next t ∧ exec .rts t = .next u ∧ u.pc = s.pc ∧
      Frame [] [] [s.sp, s.sp - 1] s u ∧ SameRun s u

/-- 45_ccr.md R320 to R326: CLC, CLV, SEC, SEI, SEV and CLI each write their one bit; TAP loads the CCR from A, but X
can be cleared and not set. CLI and TAP mark the boundary after them where they took I from 1 to 0 (D21, log 12). -/
def Obligations.ConditionCodeInstructionsWriteTheirBits : Prop :=
  ∀ s : State,
    WritesFlag .clc .c false s ∧ WritesFlag .clv .v false s ∧ WritesFlag .sec .c true s ∧ WritesFlag .sei .i true s ∧
    WritesFlag .sev .v true s ∧
    (∃ t, exec .cli s = .next t ∧ t.flag .i = false ∧ t.pc = s.pc ∧ Frame [] [.i] [] s t ∧ t.run = s.run ∧
      t.lateClear = s.flag .i ∧ SameAccesses s t) ∧
    (∃ t, exec .tap s = .next t ∧ (∀ f, t.flag f = if f = .x then s.flag .x && getFlag s.a .x else getFlag s.a f) ∧
      t.pc = s.pc ∧ Frame [] [.s, .x, .h, .i, .n, .z, .v, .c] [] s t ∧ t.run = s.run ∧
      (t.lateClear = true ↔ s.flag .i = true ∧ t.flag .i = false) ∧ SameAccesses s t)
end

