-- ==== Sys2Proof/Laws/Bits.lean ====
section
/-!
SUPPORT. The small laws of joining and halving words, in numbers and as inverses.
-/

namespace Sys2Proof.Machine

theorem join_toNat (a b : Byte) : (join a b).toNat = 256 * a.toNat + b.toNat := by
  have h : (join a b).toNat = a.toNat <<< 8 ||| b.toNat := BitVec.toNat_append a b
  rw [h, Nat.shiftLeft_eq, Nat.mul_comm, ← Nat.two_pow_add_eq_or_of_lt b.isLt]

theorem hiByte_toNat (w : Word) : (hiByte w).toNat = w.toNat / 256 := by
  have := w.isLt
  simp [hiByte, Nat.shiftRight_eq_div_pow]
  omega

theorem loByte_toNat (w : Word) : (loByte w).toNat = w.toNat % 256 := by simp [loByte]

@[simp] theorem join_hiByte_loByte (w : Word) : join (hiByte w) (loByte w) = w := by
  apply BitVec.eq_of_toNat_eq
  rw [join_toNat, hiByte_toNat, loByte_toNat]
  omega

@[simp] theorem hiByte_join (a b : Byte) : hiByte (join a b) = a := by
  have := a.isLt
  have := b.isLt
  apply BitVec.eq_of_toNat_eq
  rw [hiByte_toNat, join_toNat]
  omega

@[simp] theorem loByte_join (a b : Byte) : loByte (join a b) = b := by
  have := b.isLt
  apply BitVec.eq_of_toNat_eq
  rw [loByte_toNat, join_toNat]
  omega

end Sys2Proof.Machine
end

