-- ==== Sys2Proof/Laws/Decode.lean ====
section
/-!
SUPPORT. The laws of decoding with any `OPCODE_MAP`: a row and operand bytes make an instruction with that row's mnemonic
and mode and those operand bytes, and no other. Cite these lemmas; `forms` and `Instr.parts` need not be unfolded again.
-/

namespace Sys2Proof

open Sys2Proof.Machine

/-! ## The two tables over the instruction set agree -/

/-- The instructions that operand forms make are taken apart into that mnemonic and those operands. -/
def Fits (n : Mnemonic) : Forms → Prop
  | .inherent i => i.wf = true ∧ i.parts = ⟨n, .inh, []⟩
  | .imm8 mk => ∀ op, (mk op).wf = true ∧ (mk op).parts = partsOp8 n op
  | .imm16 mk => ∀ op, (mk op).wf = true ∧ (mk op).parts = partsOp16 n op
  | .noteA mk => ∀ m, (mk m).wf = true ∧ (mk m).parts = partsMem n [] m
  | .noteE mk => ∀ m, (mk m).wf = m.noteE ∧ (mk m).parts = partsMem n [] m
  | .noteDMask mk => ∀ m mm, (mk m mm).wf = m.noteD ∧ (mk m mm).parts = partsMem n [mm] m
  | .noteDMaskRel mk => ∀ m mm rr, (mk m mm rr).wf = m.noteD ∧ (mk m mm rr).parts = partsMem n [mm, rr] m
  | .relative mk => ∀ rr, (mk rr).wf = true ∧ (mk rr).parts = ⟨n, .rel, [rr]⟩

theorem forms_fit (n : Mnemonic) : Fits n (forms n) := by
  cases n <;> first
    | exact ⟨rfl, rfl⟩
    | exact fun _ => ⟨rfl, rfl⟩
    | exact fun _ _ => ⟨rfl, rfl⟩
    | exact fun _ _ _ => ⟨rfl, rfl⟩

/-- What the operand bytes of a row make (30_encoding.md R94): a well-formed instruction with the row's mnemonic and mode,
whose operand bytes they are. -/
theorem parts_of_parseOperands {c : OpcodeCell} {sh : Shape} {bs rest : List Byte} {i : Instr}
    (hs : c.shape = some sh) (hp : parseOperands sh bs = some (i, rest)) :
    i.wf = true ∧ i.parts.mnemonic = c.mnemonic ∧ i.parts.mode = c.mode ∧ bs = i.parts.operands ++ rest ∧
      i.parts.operands.length = operandBytes sh := by
  have hf := forms_fit c.mnemonic
  unfold OpcodeCell.shape at hs
  generalize forms c.mnemonic = f at hs hf
  generalize c.mnemonic = n at *
  generalize c.mode = md at *
  cases f <;> cases md <;> simp only [Forms.shape, Option.some.injEq, reduceCtorEq] at hs
  all_goals
    subst hs
    simp only [Fits] at hf
    obtain _ | ⟨x, _ | ⟨y, _ | ⟨z, bs⟩⟩⟩ := bs
  all_goals simp only [parseOperands, Option.some.injEq, Prod.mk.injEq, reduceCtorEq] at hp
  all_goals
    obtain ⟨rfl, rfl⟩ := hp
    simp [hf, partsOp8, partsOp16, partsMem, operandBytes, Mem.noteE, Mem.noteD]

/-- The other way round: the row of a well-formed instruction has a format, and its operand bytes make it again. -/
theorem parseOperands_parts {i : Instr} (h : i.wf = true) :
    ∃ sh, (forms i.parts.mnemonic).shape i.parts.mode = some sh ∧
      ∀ rest, parseOperands sh (i.parts.operands ++ rest) = some (i, rest) := by
  cases i
  all_goals first
    | exact ⟨_, rfl, fun _ => rfl⟩
    | (rename_i op
       obtain ii | m | m | m | m := op <;>
         (refine ⟨_, rfl, fun _ => ?_⟩; simp [Instr.parts, partsOp8, partsOp16, partsMem, parseOperands]))
    | (rename_i m
       cases m <;> first
         | exact absurd h Bool.false_ne_true
         | (refine ⟨_, rfl, fun _ => ?_⟩; simp [Instr.parts, partsMem, parseOperands]))
    | (rename_i m _
       cases m <;> first
         | exact absurd h Bool.false_ne_true
         | (refine ⟨_, rfl, fun _ => ?_⟩; simp [Instr.parts, partsMem, parseOperands]))
    | (rename_i m _ _
       cases m <;> first
         | exact absurd h Bool.false_ne_true
         | (refine ⟨_, rfl, fun _ => ?_⟩; simp [Instr.parts, partsMem, parseOperands]))

/-! ## What a decoding is -/

theorem cell_of_lookup {m : OpcodeMap} {pre : Option Byte} {op : Byte} {sh : Shape} (h : lookup m pre op = some sh) :
    ∃ c ∈ m.cells pre, c.opcode = op ∧ c.shape = some sh := by
  unfold lookup at h
  obtain ⟨c, hc, hs⟩ := Option.bind_eq_some_iff.1 h
  exact ⟨c, List.mem_of_find?_eq_some hc, by simpa using List.find?_some hc, hs⟩

/-- What `decodeOpcode` answers with comes from a row of the table, and its operand bytes are those fetched. -/
theorem decodeOpcode_ok {m : OpcodeMap} {pre : Option Byte} {op : Byte} {bs rest : List Byte} {i : Instr}
    (h : decodeOpcode m pre op bs = .ok (i, rest)) :
    i.wf = true ∧ ⟨op, i.parts.mnemonic, i.parts.mode⟩ ∈ m.cells pre ∧ bs = i.parts.operands ++ rest ∧
      i.parts.operands.length = operandCount m pre op := by
  unfold decodeOpcode at h
  split at h
  · cases h
  · next sh hl =>
    split at h
    · cases h
    · next r hp =>
      cases h
      obtain ⟨c, hc, rfl, hs⟩ := cell_of_lookup hl
      obtain ⟨hw, hn, hm, hb, hlen⟩ := parts_of_parseOperands hs hp
      exact ⟨hw, by rw [hn, hm]; exact hc, hb, by rw [hlen, operandCount, hl]⟩

theorem operandBytes_le (sh : Shape) : operandBytes sh ≤ 3 := by cases sh <;> simp [operandBytes]

theorem parseOperands_exact {sh : Shape} {bs : List Byte} (h : bs.length = operandBytes sh) :
    ∃ i, parseOperands sh bs = some (i, []) := by
  cases sh <;> rcases bs with _ | ⟨x, _ | ⟨y, _ | ⟨z, _ | ⟨w, r⟩⟩⟩⟩ <;> simp [operandBytes] at h <;> exact ⟨_, rfl⟩

/-- With exactly the operand bytes the fetch reads, decoding is never truncated: an instruction and nothing left over, or
an illegal code without operand bytes. -/
theorem decodeOpcode_of_length {m : OpcodeMap} {pre : Option Byte} {op : Byte} {ops : List Byte}
    (h : ops.length = operandCount m pre op) :
    (∃ i, decodeOpcode m pre op ops = .ok (i, [])) ∨
      decodeOpcode m pre op ops = .error (.illegalOpcode pre op) ∧ ops = [] := by
  unfold operandCount at h
  unfold decodeOpcode
  split at h
  · next hl => exact .inr ⟨rfl, List.length_eq_zero_iff.1 h⟩
  · next sh hl =>
    obtain ⟨i, hi⟩ := parseOperands_exact h
    exact .inl ⟨i, by simp only [hi]⟩

end Sys2Proof
end

