-- ==== Sys2Proof/Laws/Flags.lean ====
section
/-!
SUPPORT. The small laws of the condition code register: reading a flag after writing one, and after each of the writers.
-/

namespace Sys2Proof.Machine

/-- Reading a flag after writing one: the value written where it is the same flag, the old value where it is not. -/
@[simp] theorem getFlag_putFlag (c : Byte) (f g : Flag) (b : Bool) :
    getFlag (putFlag c f b) g = if f = g then b else getFlag c g := by
  cases f <;> cases g <;> cases b <;>
    simp [getFlag, putFlag, flagBit]

/-- A CCR value is known by its eight flags. -/
theorem ccr_ext {c d : Byte} (h : ∀ f, getFlag c f = getFlag d f) : c = d := by
  apply BitVec.eq_of_getLsbD_eq
  intro k hk
  have hc := h .c; have hv := h .v; have hz := h .z; have hn := h .n
  have hi := h .i; have hh := h .h; have hx := h .x; have hs := h .s
  simp only [getFlag, flagBit] at hc hv hz hn hi hh hx hs
  interval_cases k <;> assumption

/-- The flags after loading the CCR as a byte: those of the new value, X only if it was 1 before (10_state.md R36). -/
@[simp] theorem getFlag_loadCcr (old new : Byte) (f : Flag) :
    getFlag (loadCcr old new) f = if f = .x then getFlag old .x && getFlag new .x else getFlag new f := by
  cases f <;> simp [getFlag, loadCcr, flagBit, Bool.and_comm]

@[simp] theorem getFlag_putZ (c : Byte) (z : Bool) (f : Flag) :
    getFlag (putZ c z) f = if f = .z then z else getFlag c f := by
  cases f <;> simp [putZ]

@[simp] theorem getFlag_putNZV (c : Byte) (n z v : Bool) (f : Flag) :
    getFlag (putNZV c n z v) f =
      if f = .n then n else if f = .z then z else if f = .v then v else getFlag c f := by
  cases f <;> simp [putNZV]

@[simp] theorem getFlag_putNZVC (c : Byte) (n z v k : Bool) (f : Flag) :
    getFlag (putNZVC c n z v k) f =
      if f = .n then n else if f = .z then z else if f = .v then v else if f = .c then k else getFlag c f := by
  cases f <;> simp [putNZVC]

@[simp] theorem getFlag_putHNZVC (c : Byte) (h n z v k : Bool) (f : Flag) :
    getFlag (putHNZVC c h n z v k) f =
      if f = .h then h else if f = .n then n else if f = .z then z else if f = .v then v
      else if f = .c then k else getFlag c f := by
  cases f <;> simp [putHNZVC]

@[simp] theorem getFlag_putZVC (c : Byte) (z v k : Bool) (f : Flag) :
    getFlag (putZVC c z v k) f =
      if f = .z then z else if f = .v then v else if f = .c then k else getFlag c f := by
  cases f <;> simp [putZVC]

/-- The flags that no load, store or logic operation writes. -/
theorem getFlag_nz8 (r c : Byte) (f : Flag) :
    getFlag (nz8 r c) f =
      if f = .n then r.msb else if f = .z then r == 0#8 else if f = .v then false else getFlag c f := by
  simp [nz8]

theorem getFlag_nz16 (r : Word) (c : Byte) (f : Flag) :
    getFlag (nz16 r c) f =
      if f = .n then r.msb else if f = .z then r == 0#16 else if f = .v then false else getFlag c f := by
  simp [nz16]

/-- The flags after a shift or rotate (41_bitwise.md R180). -/
theorem getFlag_shiftFlags (c : Byte) (n z out : Bool) (f : Flag) :
    getFlag (shiftFlags c n z out) f =
      if f = .n then n else if f = .z then z else if f = .v then n != out else if f = .c then out
      else getFlag c f := by
  simp [shiftFlags]

end Sys2Proof.Machine
end

