-- ==== Sys2Proof/Laws/State.lean ====
section
/-!
SUPPORT. What each named update of a state does to each field, so that no later proof unfolds a record update.
-/

namespace Sys2Proof.Machine

variable (s : State)

/-! ## Writing one accumulator -/

@[simp] theorem State.acc_setAcc_same (r : Acc) (v : Byte) : (s.setAcc r v).acc r = v := by cases r <;> rfl
@[simp] theorem State.setAcc_a_a (v : Byte) : (s.setAcc .a v).a = v := rfl
@[simp] theorem State.setAcc_a_b (v : Byte) : (s.setAcc .a v).b = s.b := rfl
@[simp] theorem State.setAcc_b_a (v : Byte) : (s.setAcc .b v).a = s.a := rfl
@[simp] theorem State.setAcc_b_b (v : Byte) : (s.setAcc .b v).b = v := rfl
@[simp] theorem State.acc_a : s.acc .a = s.a := rfl
@[simp] theorem State.acc_b : s.acc .b = s.b := rfl
@[simp] theorem State.setAcc_ix (r : Acc) (v : Byte) : (s.setAcc r v).ix = s.ix := by cases r <;> rfl
@[simp] theorem State.setAcc_iy (r : Acc) (v : Byte) : (s.setAcc r v).iy = s.iy := by cases r <;> rfl
@[simp] theorem State.setAcc_sp (r : Acc) (v : Byte) : (s.setAcc r v).sp = s.sp := by cases r <;> rfl
@[simp] theorem State.setAcc_pc (r : Acc) (v : Byte) : (s.setAcc r v).pc = s.pc := by cases r <;> rfl
@[simp] theorem State.setAcc_ccr (r : Acc) (v : Byte) : (s.setAcc r v).ccr = s.ccr := by cases r <;> rfl
@[simp] theorem State.setAcc_run (r : Acc) (v : Byte) : (s.setAcc r v).run = s.run := by cases r <;> rfl
@[simp] theorem State.setAcc_lastReset (r : Acc) (v : Byte) : (s.setAcc r v).lastReset = s.lastReset := by cases r <;> rfl
@[simp] theorem State.setAcc_mem (r : Acc) (v : Byte) : (s.setAcc r v).mem = s.mem := by cases r <;> rfl
@[simp] theorem State.setAcc_lines (r : Acc) (v : Byte) : (s.setAcc r v).lines = s.lines := by cases r <;> rfl
@[simp] theorem State.setAcc_script (r : Acc) (v : Byte) : (s.setAcc r v).script = s.script := by cases r <;> rfl
@[simp] theorem State.setAcc_lateClear (r : Acc) (v : Byte) : (s.setAcc r v).lateClear = s.lateClear := by cases r <;> rfl
@[simp] theorem State.setAcc_io (r : Acc) (v : Byte) : (s.setAcc r v).io = s.io := by cases r <;> rfl
@[simp] theorem State.setAcc_draws (r : Acc) (v : Byte) : (s.setAcc r v).draws = s.draws := by cases r <;> rfl
@[simp] theorem State.setAcc_generation (r : Acc) (v : Byte) : (s.setAcc r v).generation = s.generation := by cases r <;> rfl
@[simp] theorem State.setAcc_cfg (r : Acc) (v : Byte) : (s.setAcc r v).cfg = s.cfg := by cases r <;> rfl

/-! ## Writing one 16-bit register -/

@[simp] theorem State.reg16_d : s.reg16 .d = join s.a s.b := rfl
@[simp] theorem State.reg16_x : s.reg16 .x = s.ix := rfl
@[simp] theorem State.reg16_y : s.reg16 .y = s.iy := rfl
@[simp] theorem State.reg16_sp : s.reg16 .sp = s.sp := rfl
@[simp] theorem State.setReg16_d_a (v : Word) : (s.setReg16 .d v).a = hiByte v := rfl
@[simp] theorem State.setReg16_d_b (v : Word) : (s.setReg16 .d v).b = loByte v := rfl
@[simp] theorem State.setReg16_d_ix (v : Word) : (s.setReg16 .d v).ix = s.ix := rfl
@[simp] theorem State.setReg16_d_iy (v : Word) : (s.setReg16 .d v).iy = s.iy := rfl
@[simp] theorem State.setReg16_d_sp (v : Word) : (s.setReg16 .d v).sp = s.sp := rfl
@[simp] theorem State.setReg16_x_a (v : Word) : (s.setReg16 .x v).a = s.a := rfl
@[simp] theorem State.setReg16_x_b (v : Word) : (s.setReg16 .x v).b = s.b := rfl
@[simp] theorem State.setReg16_x_ix (v : Word) : (s.setReg16 .x v).ix = v := rfl
@[simp] theorem State.setReg16_x_iy (v : Word) : (s.setReg16 .x v).iy = s.iy := rfl
@[simp] theorem State.setReg16_x_sp (v : Word) : (s.setReg16 .x v).sp = s.sp := rfl
@[simp] theorem State.setReg16_y_a (v : Word) : (s.setReg16 .y v).a = s.a := rfl
@[simp] theorem State.setReg16_y_b (v : Word) : (s.setReg16 .y v).b = s.b := rfl
@[simp] theorem State.setReg16_y_ix (v : Word) : (s.setReg16 .y v).ix = s.ix := rfl
@[simp] theorem State.setReg16_y_iy (v : Word) : (s.setReg16 .y v).iy = v := rfl
@[simp] theorem State.setReg16_y_sp (v : Word) : (s.setReg16 .y v).sp = s.sp := rfl
@[simp] theorem State.setReg16_sp_a (v : Word) : (s.setReg16 .sp v).a = s.a := rfl
@[simp] theorem State.setReg16_sp_b (v : Word) : (s.setReg16 .sp v).b = s.b := rfl
@[simp] theorem State.setReg16_sp_ix (v : Word) : (s.setReg16 .sp v).ix = s.ix := rfl
@[simp] theorem State.setReg16_sp_iy (v : Word) : (s.setReg16 .sp v).iy = s.iy := rfl
@[simp] theorem State.setReg16_sp_sp (v : Word) : (s.setReg16 .sp v).sp = v := rfl
@[simp] theorem State.setReg16_pc (r : Reg16) (v : Word) : (s.setReg16 r v).pc = s.pc := by cases r <;> rfl
@[simp] theorem State.setReg16_ccr (r : Reg16) (v : Word) : (s.setReg16 r v).ccr = s.ccr := by cases r <;> rfl
@[simp] theorem State.setReg16_run (r : Reg16) (v : Word) : (s.setReg16 r v).run = s.run := by cases r <;> rfl
@[simp] theorem State.setReg16_lastReset (r : Reg16) (v : Word) : (s.setReg16 r v).lastReset = s.lastReset := by cases r <;> rfl
@[simp] theorem State.setReg16_mem (r : Reg16) (v : Word) : (s.setReg16 r v).mem = s.mem := by cases r <;> rfl
@[simp] theorem State.setReg16_lines (r : Reg16) (v : Word) : (s.setReg16 r v).lines = s.lines := by cases r <;> rfl
@[simp] theorem State.setReg16_script (r : Reg16) (v : Word) : (s.setReg16 r v).script = s.script := by cases r <;> rfl
@[simp] theorem State.setReg16_lateClear (r : Reg16) (v : Word) : (s.setReg16 r v).lateClear = s.lateClear := by cases r <;> rfl
@[simp] theorem State.setReg16_io (r : Reg16) (v : Word) : (s.setReg16 r v).io = s.io := by cases r <;> rfl
@[simp] theorem State.setReg16_draws (r : Reg16) (v : Word) : (s.setReg16 r v).draws = s.draws := by cases r <;> rfl
@[simp] theorem State.setReg16_generation (r : Reg16) (v : Word) : (s.setReg16 r v).generation = s.generation := by cases r <;> rfl
@[simp] theorem State.setReg16_cfg (r : Reg16) (v : Word) : (s.setReg16 r v).cfg = s.cfg := by cases r <;> rfl

/-! ## Using up a free value -/

@[simp] theorem State.drawn_a : s.drawn.a = s.a := rfl
@[simp] theorem State.drawn_b : s.drawn.b = s.b := rfl
@[simp] theorem State.drawn_ix : s.drawn.ix = s.ix := rfl
@[simp] theorem State.drawn_iy : s.drawn.iy = s.iy := rfl
@[simp] theorem State.drawn_sp : s.drawn.sp = s.sp := rfl
@[simp] theorem State.drawn_pc : s.drawn.pc = s.pc := rfl
@[simp] theorem State.drawn_ccr : s.drawn.ccr = s.ccr := rfl
@[simp] theorem State.drawn_run : s.drawn.run = s.run := rfl
@[simp] theorem State.drawn_lastReset : s.drawn.lastReset = s.lastReset := rfl
@[simp] theorem State.drawn_mem : s.drawn.mem = s.mem := rfl
@[simp] theorem State.drawn_lines : s.drawn.lines = s.lines := rfl
@[simp] theorem State.drawn_script : s.drawn.script = s.script := rfl
@[simp] theorem State.drawn_lateClear : s.drawn.lateClear = s.lateClear := rfl
@[simp] theorem State.drawn_io : s.drawn.io = s.io := rfl
@[simp] theorem State.drawn_draws : s.drawn.draws = s.draws + 1 := rfl
@[simp] theorem State.drawn_generation : s.drawn.generation = s.generation := rfl
@[simp] theorem State.drawn_cfg : s.drawn.cfg = s.cfg := rfl

/-! ## Reading a byte -/

@[simp] theorem touch_a (x : Word) : (touch x s).a = s.a := by unfold touch; split <;> rfl
@[simp] theorem touch_b (x : Word) : (touch x s).b = s.b := by unfold touch; split <;> rfl
@[simp] theorem touch_ix (x : Word) : (touch x s).ix = s.ix := by unfold touch; split <;> rfl
@[simp] theorem touch_iy (x : Word) : (touch x s).iy = s.iy := by unfold touch; split <;> rfl
@[simp] theorem touch_sp (x : Word) : (touch x s).sp = s.sp := by unfold touch; split <;> rfl
@[simp] theorem touch_pc (x : Word) : (touch x s).pc = s.pc := by unfold touch; split <;> rfl
@[simp] theorem touch_ccr (x : Word) : (touch x s).ccr = s.ccr := by unfold touch; split <;> rfl
@[simp] theorem touch_run (x : Word) : (touch x s).run = s.run := by unfold touch; split <;> rfl
@[simp] theorem touch_lastReset (x : Word) : (touch x s).lastReset = s.lastReset := by unfold touch; split <;> rfl
@[simp] theorem touch_mem (x : Word) : (touch x s).mem = s.mem := by unfold touch; split <;> rfl
@[simp] theorem touch_lines (x : Word) : (touch x s).lines = s.lines := by unfold touch; split <;> rfl
@[simp] theorem touch_script (x : Word) : (touch x s).script = s.script := by unfold touch; split <;> rfl
@[simp] theorem touch_lateClear (x : Word) : (touch x s).lateClear = s.lateClear := by unfold touch; split <;> rfl
@[simp] theorem touch_generation (x : Word) : (touch x s).generation = s.generation := by unfold touch; split <;> rfl
@[simp] theorem touch_cfg (x : Word) : (touch x s).cfg = s.cfg := by unfold touch; split <;> rfl

/-! ## Reading a word -/

@[simp] theorem touch16_a (x : Word) : (touch16 x s).a = s.a := by simp [touch16]
@[simp] theorem touch16_b (x : Word) : (touch16 x s).b = s.b := by simp [touch16]
@[simp] theorem touch16_ix (x : Word) : (touch16 x s).ix = s.ix := by simp [touch16]
@[simp] theorem touch16_iy (x : Word) : (touch16 x s).iy = s.iy := by simp [touch16]
@[simp] theorem touch16_sp (x : Word) : (touch16 x s).sp = s.sp := by simp [touch16]
@[simp] theorem touch16_pc (x : Word) : (touch16 x s).pc = s.pc := by simp [touch16]
@[simp] theorem touch16_ccr (x : Word) : (touch16 x s).ccr = s.ccr := by simp [touch16]
@[simp] theorem touch16_run (x : Word) : (touch16 x s).run = s.run := by simp [touch16]
@[simp] theorem touch16_lastReset (x : Word) : (touch16 x s).lastReset = s.lastReset := by simp [touch16]
@[simp] theorem touch16_mem (x : Word) : (touch16 x s).mem = s.mem := by simp [touch16]
@[simp] theorem touch16_lines (x : Word) : (touch16 x s).lines = s.lines := by simp [touch16]
@[simp] theorem touch16_script (x : Word) : (touch16 x s).script = s.script := by simp [touch16]
@[simp] theorem touch16_lateClear (x : Word) : (touch16 x s).lateClear = s.lateClear := by simp [touch16]
@[simp] theorem touch16_generation (x : Word) : (touch16 x s).generation = s.generation := by simp [touch16]
@[simp] theorem touch16_cfg (x : Word) : (touch16 x s).cfg = s.cfg := by simp [touch16]

/-! ## Reading several bytes -/

@[simp] theorem touchBytes_a (k : Nat) (x : Word) : (touchBytes k x s).a = s.a := by induction k generalizing x s with | zero => rfl | succ k ih => simp [touchBytes, ih]
@[simp] theorem touchBytes_b (k : Nat) (x : Word) : (touchBytes k x s).b = s.b := by induction k generalizing x s with | zero => rfl | succ k ih => simp [touchBytes, ih]
@[simp] theorem touchBytes_ix (k : Nat) (x : Word) : (touchBytes k x s).ix = s.ix := by induction k generalizing x s with | zero => rfl | succ k ih => simp [touchBytes, ih]
@[simp] theorem touchBytes_iy (k : Nat) (x : Word) : (touchBytes k x s).iy = s.iy := by induction k generalizing x s with | zero => rfl | succ k ih => simp [touchBytes, ih]
@[simp] theorem touchBytes_sp (k : Nat) (x : Word) : (touchBytes k x s).sp = s.sp := by induction k generalizing x s with | zero => rfl | succ k ih => simp [touchBytes, ih]
@[simp] theorem touchBytes_pc (k : Nat) (x : Word) : (touchBytes k x s).pc = s.pc := by induction k generalizing x s with | zero => rfl | succ k ih => simp [touchBytes, ih]
@[simp] theorem touchBytes_ccr (k : Nat) (x : Word) : (touchBytes k x s).ccr = s.ccr := by induction k generalizing x s with | zero => rfl | succ k ih => simp [touchBytes, ih]
@[simp] theorem touchBytes_run (k : Nat) (x : Word) : (touchBytes k x s).run = s.run := by induction k generalizing x s with | zero => rfl | succ k ih => simp [touchBytes, ih]
@[simp] theorem touchBytes_lastReset (k : Nat) (x : Word) : (touchBytes k x s).lastReset = s.lastReset := by induction k generalizing x s with | zero => rfl | succ k ih => simp [touchBytes, ih]
@[simp] theorem touchBytes_mem (k : Nat) (x : Word) : (touchBytes k x s).mem = s.mem := by induction k generalizing x s with | zero => rfl | succ k ih => simp [touchBytes, ih]
@[simp] theorem touchBytes_lines (k : Nat) (x : Word) : (touchBytes k x s).lines = s.lines := by induction k generalizing x s with | zero => rfl | succ k ih => simp [touchBytes, ih]
@[simp] theorem touchBytes_script (k : Nat) (x : Word) : (touchBytes k x s).script = s.script := by induction k generalizing x s with | zero => rfl | succ k ih => simp [touchBytes, ih]
@[simp] theorem touchBytes_lateClear (k : Nat) (x : Word) : (touchBytes k x s).lateClear = s.lateClear := by induction k generalizing x s with | zero => rfl | succ k ih => simp [touchBytes, ih]
@[simp] theorem touchBytes_generation (k : Nat) (x : Word) : (touchBytes k x s).generation = s.generation := by induction k generalizing x s with | zero => rfl | succ k ih => simp [touchBytes, ih]
@[simp] theorem touchBytes_cfg (k : Nat) (x : Word) : (touchBytes k x s).cfg = s.cfg := by induction k generalizing x s with | zero => rfl | succ k ih => simp [touchBytes, ih]

/-! ## Writing a byte -/

@[simp] theorem store_a (x : Word) (v : Byte) : (store x v s).a = s.a := by unfold store; split <;> rfl
@[simp] theorem store_b (x : Word) (v : Byte) : (store x v s).b = s.b := by unfold store; split <;> rfl
@[simp] theorem store_ix (x : Word) (v : Byte) : (store x v s).ix = s.ix := by unfold store; split <;> rfl
@[simp] theorem store_iy (x : Word) (v : Byte) : (store x v s).iy = s.iy := by unfold store; split <;> rfl
@[simp] theorem store_sp (x : Word) (v : Byte) : (store x v s).sp = s.sp := by unfold store; split <;> rfl
@[simp] theorem store_pc (x : Word) (v : Byte) : (store x v s).pc = s.pc := by unfold store; split <;> rfl
@[simp] theorem store_ccr (x : Word) (v : Byte) : (store x v s).ccr = s.ccr := by unfold store; split <;> rfl
@[simp] theorem store_run (x : Word) (v : Byte) : (store x v s).run = s.run := by unfold store; split <;> rfl
@[simp] theorem store_lastReset (x : Word) (v : Byte) : (store x v s).lastReset = s.lastReset := by unfold store; split <;> rfl
@[simp] theorem store_lines (x : Word) (v : Byte) : (store x v s).lines = s.lines := by unfold store; split <;> rfl
@[simp] theorem store_script (x : Word) (v : Byte) : (store x v s).script = s.script := by unfold store; split <;> rfl
@[simp] theorem store_lateClear (x : Word) (v : Byte) : (store x v s).lateClear = s.lateClear := by unfold store; split <;> rfl
@[simp] theorem store_draws (x : Word) (v : Byte) : (store x v s).draws = s.draws := by unfold store; split <;> rfl
@[simp] theorem store_generation (x : Word) (v : Byte) : (store x v s).generation = s.generation := by unfold store; split <;> rfl
@[simp] theorem store_cfg (x : Word) (v : Byte) : (store x v s).cfg = s.cfg := by unfold store; split <;> rfl

/-! ## Writing a word -/

@[simp] theorem store16_a (x v : Word) : (store16 x v s).a = s.a := by simp [store16]
@[simp] theorem store16_b (x v : Word) : (store16 x v s).b = s.b := by simp [store16]
@[simp] theorem store16_ix (x v : Word) : (store16 x v s).ix = s.ix := by simp [store16]
@[simp] theorem store16_iy (x v : Word) : (store16 x v s).iy = s.iy := by simp [store16]
@[simp] theorem store16_sp (x v : Word) : (store16 x v s).sp = s.sp := by simp [store16]
@[simp] theorem store16_pc (x v : Word) : (store16 x v s).pc = s.pc := by simp [store16]
@[simp] theorem store16_ccr (x v : Word) : (store16 x v s).ccr = s.ccr := by simp [store16]
@[simp] theorem store16_run (x v : Word) : (store16 x v s).run = s.run := by simp [store16]
@[simp] theorem store16_lastReset (x v : Word) : (store16 x v s).lastReset = s.lastReset := by simp [store16]
@[simp] theorem store16_lines (x v : Word) : (store16 x v s).lines = s.lines := by simp [store16]
@[simp] theorem store16_script (x v : Word) : (store16 x v s).script = s.script := by simp [store16]
@[simp] theorem store16_lateClear (x v : Word) : (store16 x v s).lateClear = s.lateClear := by simp [store16]
@[simp] theorem store16_draws (x v : Word) : (store16 x v s).draws = s.draws := by simp [store16]
@[simp] theorem store16_generation (x v : Word) : (store16 x v s).generation = s.generation := by simp [store16]
@[simp] theorem store16_cfg (x v : Word) : (store16 x v s).cfg = s.cfg := by simp [store16]

/-! ## The stack -/

@[simp] theorem push_a (v : Byte) : (push v s).a = s.a := by simp [push]
@[simp] theorem push_b (v : Byte) : (push v s).b = s.b := by simp [push]
@[simp] theorem push_ix (v : Byte) : (push v s).ix = s.ix := by simp [push]
@[simp] theorem push_iy (v : Byte) : (push v s).iy = s.iy := by simp [push]
@[simp] theorem push_sp (v : Byte) : (push v s).sp = s.sp - 1 := by simp [push]
@[simp] theorem push_pc (v : Byte) : (push v s).pc = s.pc := by simp [push]
@[simp] theorem push_ccr (v : Byte) : (push v s).ccr = s.ccr := by simp [push]
@[simp] theorem push_run (v : Byte) : (push v s).run = s.run := by simp [push]
@[simp] theorem push_lastReset (v : Byte) : (push v s).lastReset = s.lastReset := by simp [push]
@[simp] theorem push_lines (v : Byte) : (push v s).lines = s.lines := by simp [push]
@[simp] theorem push_script (v : Byte) : (push v s).script = s.script := by simp [push]
@[simp] theorem push_lateClear (v : Byte) : (push v s).lateClear = s.lateClear := by simp [push]
@[simp] theorem push_draws (v : Byte) : (push v s).draws = s.draws := by simp [push]
@[simp] theorem push_generation (v : Byte) : (push v s).generation = s.generation := by simp [push]
@[simp] theorem push_cfg (v : Byte) : (push v s).cfg = s.cfg := by simp [push]
@[simp] theorem pushWord_a (v : Word) : (pushWord v s).a = s.a := by simp [pushWord]
@[simp] theorem pushWord_b (v : Word) : (pushWord v s).b = s.b := by simp [pushWord]
@[simp] theorem pushWord_ix (v : Word) : (pushWord v s).ix = s.ix := by simp [pushWord]
@[simp] theorem pushWord_iy (v : Word) : (pushWord v s).iy = s.iy := by simp [pushWord]
@[simp] theorem pushWord_sp (v : Word) : (pushWord v s).sp = s.sp - 1 - 1 := by simp [pushWord]
@[simp] theorem pushWord_pc (v : Word) : (pushWord v s).pc = s.pc := by simp [pushWord]
@[simp] theorem pushWord_ccr (v : Word) : (pushWord v s).ccr = s.ccr := by simp [pushWord]
@[simp] theorem pushWord_run (v : Word) : (pushWord v s).run = s.run := by simp [pushWord]
@[simp] theorem pushWord_lastReset (v : Word) : (pushWord v s).lastReset = s.lastReset := by simp [pushWord]
@[simp] theorem pushWord_lines (v : Word) : (pushWord v s).lines = s.lines := by simp [pushWord]
@[simp] theorem pushWord_script (v : Word) : (pushWord v s).script = s.script := by simp [pushWord]
@[simp] theorem pushWord_lateClear (v : Word) : (pushWord v s).lateClear = s.lateClear := by simp [pushWord]
@[simp] theorem pushWord_draws (v : Word) : (pushWord v s).draws = s.draws := by simp [pushWord]
@[simp] theorem pushWord_generation (v : Word) : (pushWord v s).generation = s.generation := by simp [pushWord]
@[simp] theorem pushWord_cfg (v : Word) : (pushWord v s).cfg = s.cfg := by simp [pushWord]
@[simp] theorem pulled_a : (pulled s).a = s.a := by simp [pulled]
@[simp] theorem pulled_b : (pulled s).b = s.b := by simp [pulled]
@[simp] theorem pulled_ix : (pulled s).ix = s.ix := by simp [pulled]
@[simp] theorem pulled_iy : (pulled s).iy = s.iy := by simp [pulled]
@[simp] theorem pulled_sp : (pulled s).sp = s.sp + 1 := by simp [pulled]
@[simp] theorem pulled_pc : (pulled s).pc = s.pc := by simp [pulled]
@[simp] theorem pulled_ccr : (pulled s).ccr = s.ccr := by simp [pulled]
@[simp] theorem pulled_run : (pulled s).run = s.run := by simp [pulled]
@[simp] theorem pulled_lastReset : (pulled s).lastReset = s.lastReset := by simp [pulled]
@[simp] theorem pulled_mem : (pulled s).mem = s.mem := by simp [pulled]
@[simp] theorem pulled_lines : (pulled s).lines = s.lines := by simp [pulled]
@[simp] theorem pulled_script : (pulled s).script = s.script := by simp [pulled]
@[simp] theorem pulled_lateClear : (pulled s).lateClear = s.lateClear := by simp [pulled]
@[simp] theorem pulled_generation : (pulled s).generation = s.generation := by simp [pulled]
@[simp] theorem pulled_cfg : (pulled s).cfg = s.cfg := by simp [pulled]
@[simp] theorem pulledWord_a : (pulledWord s).a = s.a := by simp [pulledWord]
@[simp] theorem pulledWord_b : (pulledWord s).b = s.b := by simp [pulledWord]
@[simp] theorem pulledWord_ix : (pulledWord s).ix = s.ix := by simp [pulledWord]
@[simp] theorem pulledWord_iy : (pulledWord s).iy = s.iy := by simp [pulledWord]
@[simp] theorem pulledWord_sp : (pulledWord s).sp = s.sp + 1 + 1 := by simp [pulledWord]
@[simp] theorem pulledWord_pc : (pulledWord s).pc = s.pc := by simp [pulledWord]
@[simp] theorem pulledWord_ccr : (pulledWord s).ccr = s.ccr := by simp [pulledWord]
@[simp] theorem pulledWord_run : (pulledWord s).run = s.run := by simp [pulledWord]
@[simp] theorem pulledWord_lastReset : (pulledWord s).lastReset = s.lastReset := by simp [pulledWord]
@[simp] theorem pulledWord_mem : (pulledWord s).mem = s.mem := by simp [pulledWord]
@[simp] theorem pulledWord_lines : (pulledWord s).lines = s.lines := by simp [pulledWord]
@[simp] theorem pulledWord_script : (pulledWord s).script = s.script := by simp [pulledWord]
@[simp] theorem pulledWord_lateClear : (pulledWord s).lateClear = s.lateClear := by simp [pulledWord]
@[simp] theorem pulledWord_generation : (pulledWord s).generation = s.generation := by simp [pulledWord]
@[simp] theorem pulledWord_cfg : (pulledWord s).cfg = s.cfg := by simp [pulledWord]
@[simp] theorem stackFrame_a (ret : Word) : (stackFrame ret s).a = s.a := by simp [stackFrame]
@[simp] theorem stackFrame_b (ret : Word) : (stackFrame ret s).b = s.b := by simp [stackFrame]
@[simp] theorem stackFrame_ix (ret : Word) : (stackFrame ret s).ix = s.ix := by simp [stackFrame]
@[simp] theorem stackFrame_iy (ret : Word) : (stackFrame ret s).iy = s.iy := by simp [stackFrame]
theorem stackFrame_sp (ret : Word) : (stackFrame ret s).sp = s.sp - 9#16 := by
  simp only [stackFrame, push_sp, pushWord_sp]; bv_omega
@[simp] theorem stackFrame_pc (ret : Word) : (stackFrame ret s).pc = s.pc := by simp [stackFrame]
@[simp] theorem stackFrame_ccr (ret : Word) : (stackFrame ret s).ccr = s.ccr := by simp [stackFrame]
@[simp] theorem stackFrame_run (ret : Word) : (stackFrame ret s).run = s.run := by simp [stackFrame]
@[simp] theorem stackFrame_lastReset (ret : Word) : (stackFrame ret s).lastReset = s.lastReset := by simp [stackFrame]
@[simp] theorem stackFrame_lines (ret : Word) : (stackFrame ret s).lines = s.lines := by simp [stackFrame]
@[simp] theorem stackFrame_script (ret : Word) : (stackFrame ret s).script = s.script := by simp [stackFrame]
@[simp] theorem stackFrame_lateClear (ret : Word) : (stackFrame ret s).lateClear = s.lateClear := by simp [stackFrame]
@[simp] theorem stackFrame_draws (ret : Word) : (stackFrame ret s).draws = s.draws := by simp [stackFrame]
@[simp] theorem stackFrame_generation (ret : Word) : (stackFrame ret s).generation = s.generation := by simp [stackFrame]
@[simp] theorem stackFrame_cfg (ret : Word) : (stackFrame ret s).cfg = s.cfg := by simp [stackFrame]

/-! ## Sampling the lines -/

@[simp] theorem sample_a : (sample s).a = s.a := by unfold sample; split <;> rfl
@[simp] theorem sample_b : (sample s).b = s.b := by unfold sample; split <;> rfl
@[simp] theorem sample_ix : (sample s).ix = s.ix := by unfold sample; split <;> rfl
@[simp] theorem sample_iy : (sample s).iy = s.iy := by unfold sample; split <;> rfl
@[simp] theorem sample_sp : (sample s).sp = s.sp := by unfold sample; split <;> rfl
@[simp] theorem sample_pc : (sample s).pc = s.pc := by unfold sample; split <;> rfl
@[simp] theorem sample_ccr : (sample s).ccr = s.ccr := by unfold sample; split <;> rfl
@[simp] theorem sample_run : (sample s).run = s.run := by unfold sample; split <;> rfl
@[simp] theorem sample_lastReset : (sample s).lastReset = s.lastReset := by unfold sample; split <;> rfl
@[simp] theorem sample_mem : (sample s).mem = s.mem := by unfold sample; split <;> rfl
@[simp] theorem sample_lateClear : (sample s).lateClear = s.lateClear := by unfold sample; split <;> rfl
@[simp] theorem sample_io : (sample s).io = s.io := by unfold sample; split <;> rfl
@[simp] theorem sample_draws : (sample s).draws = s.draws := by unfold sample; split <;> rfl
@[simp] theorem sample_generation : (sample s).generation = s.generation := by unfold sample; split <;> rfl
@[simp] theorem sample_cfg : (sample s).cfg = s.cfg := by unfold sample; split <;> rfl

/-! ## Entry through a vector -/

@[simp] theorem enterVector_a (w : Word) (b : Bool) : (enterVector w b s).a = s.a := by simp [enterVector]
@[simp] theorem enterVector_b (w : Word) (b : Bool) : (enterVector w b s).b = s.b := by simp [enterVector]
@[simp] theorem enterVector_ix (w : Word) (b : Bool) : (enterVector w b s).ix = s.ix := by simp [enterVector]
@[simp] theorem enterVector_iy (w : Word) (b : Bool) : (enterVector w b s).iy = s.iy := by simp [enterVector]
@[simp] theorem enterVector_sp (w : Word) (b : Bool) : (enterVector w b s).sp = s.sp := by simp [enterVector]
@[simp] theorem enterVector_lastReset (w : Word) (b : Bool) : (enterVector w b s).lastReset = s.lastReset := by simp [enterVector]
@[simp] theorem enterVector_mem (w : Word) (b : Bool) : (enterVector w b s).mem = s.mem := by simp [enterVector]
@[simp] theorem enterVector_lines (w : Word) (b : Bool) : (enterVector w b s).lines = s.lines := by simp [enterVector]
@[simp] theorem enterVector_script (w : Word) (b : Bool) : (enterVector w b s).script = s.script := by simp [enterVector]
@[simp] theorem enterVector_lateClear (w : Word) (b : Bool) : (enterVector w b s).lateClear = s.lateClear := by simp [enterVector]
@[simp] theorem enterVector_generation (w : Word) (b : Bool) : (enterVector w b s).generation = s.generation := by simp [enterVector]
@[simp] theorem enterVector_cfg (w : Word) (b : Bool) : (enterVector w b s).cfg = s.cfg := by simp [enterVector]
@[simp] theorem enterVector_run (w : Word) (b : Bool) : (enterVector w b s).run = .running := rfl
@[simp] theorem enterVector_ccr (w : Word) (b : Bool) :
    (enterVector w b s).ccr = putFlag (if b then putFlag s.ccr .x true else s.ccr) .i true := by simp [enterVector]

/-! ## What stands at an address depends on the configuration alone -/

theorem kind_eq_of_cfg {s t : State} (h : t.cfg = s.cfg) (x : Word) : t.kind x = s.kind x := by
  simp [State.kind, h]

end Sys2Proof.Machine
end

