-- ==== Sys2Proof/Laws/Memory.lean ====
section
/-!
SUPPORT. The laws of memory: a read after a write, the canonical form kept by every memory operation, and for each
access primitive one lemma that says all it can do.
-/

namespace Sys2Proof.Machine

/-! ## The list of bytes -/

@[simp] theorem memRead_memWrite_same (m : Memory) (a : Nat) (v : Byte) : memRead (memWrite m a v) a = some v := by
  induction m with
  | nil => simp [memWrite, memRead]
  | cons c rest ih =>
    obtain ⟨k, w⟩ := c
    simp only [memWrite]
    split
    · simp [memRead]
    · split
      · simp [memRead]
      · rename_i h1 h2
        simp [memRead, h2, ih]

theorem memRead_memWrite_ne (m : Memory) {a b : Nat} (v : Byte) (h : b ≠ a) :
    memRead (memWrite m a v) b = memRead m b := by
  induction m with
  | nil => simp [memWrite, memRead, h]
  | cons c rest ih =>
    obtain ⟨k, w⟩ := c
    simp only [memWrite]
    split
    · simp [memRead, h]
    · split
      · rename_i h1 h2
        subst h2
        simp [memRead, h]
      · simp [memRead, ih]

/-- The canonical form in the words of lists: addresses rise strictly and are 16-bit addresses. -/
theorem Memory.wf_iff (m : Memory) :
    Memory.wf m = true ↔ m.Pairwise (fun c d => c.1 < d.1) ∧ ∀ c ∈ m, c.1 < 65536 := by
  induction m with
  | nil => simp [Memory.wf]
  | cons c rest ih =>
    obtain ⟨a, v⟩ := c
    cases rest with
    | nil => simp [Memory.wf]
    | cons d rest =>
      obtain ⟨b, w⟩ := d
      simp only [Memory.wf, Bool.and_eq_true, decide_eq_true_eq, ih, List.pairwise_cons, List.mem_cons,
        forall_eq_or_imp]
      constructor
      · rintro ⟨hab, ⟨hb, hp⟩, hb', hr⟩
        exact ⟨⟨⟨hab, fun x hx => lt_trans hab (hb x hx)⟩, hb, hp⟩, lt_trans hab hb', hb', hr⟩
      · rintro ⟨⟨⟨hab, -⟩, hb, hp⟩, -, hb', hr⟩
        exact ⟨hab, ⟨hb, hp⟩, hb', hr⟩

theorem mem_memWrite {m : Memory} {a : Nat} {v : Byte} {c : Host.Cell} (h : c ∈ memWrite m a v) :
    c = (a, v) ∨ c ∈ m := by
  induction m with
  | nil => simpa [memWrite] using h
  | cons d rest ih =>
    obtain ⟨k, w⟩ := d
    simp only [memWrite] at h
    split at h
    · simpa using h
    · split at h
      · rcases List.mem_cons.1 h with h | h
        · exact .inl h
        · exact .inr (List.mem_cons_of_mem _ h)
      · rcases List.mem_cons.1 h with h | h
        · exact .inr (by simp [h])
        · exact (ih h).imp id (List.mem_cons_of_mem _)

/-- A write keeps the canonical form. -/
theorem memWrite_wf {m : Memory} {a : Nat} {v : Byte} (hm : Memory.wf m = true) (ha : a < 65536) :
    Memory.wf (memWrite m a v) = true := by
  rw [Memory.wf_iff] at hm ⊢
  refine ⟨?_, fun c hc => (mem_memWrite hc).elim (fun h => h ▸ ha) (hm.2 c)⟩
  replace hm := hm.1
  induction m with
  | nil => simp [memWrite]
  | cons d rest ih =>
    obtain ⟨k, w⟩ := d
    rw [List.pairwise_cons] at hm
    simp only [memWrite]
    split
    · rename_i hlt
      refine List.pairwise_cons.2 ⟨fun x hx => ?_, List.pairwise_cons.2 hm⟩
      rcases List.mem_cons.1 hx with rfl | hx
      · exact hlt
      · exact lt_trans hlt (hm.1 x hx)
    · split
      · rename_i h
        subst h
        exact List.pairwise_cons.2 hm
      · rename_i h1 h2
        refine List.pairwise_cons.2 ⟨fun x hx => ?_, ih hm.2⟩
        rcases mem_memWrite hx with rfl | hx
        · exact lt_of_le_of_ne (not_lt.1 h1) (Ne.symm h2)
        · exact hm.1 x hx

/-- Dropping entries keeps the canonical form. -/
theorem filter_wf {m : Memory} (p : Host.Cell → Bool) (hm : Memory.wf m = true) :
    Memory.wf (m.filter p) = true := by
  rw [Memory.wf_iff] at hm ⊢
  exact ⟨hm.1.sublist List.filter_sublist, fun c hc => hm.2 c (List.mem_filter.1 hc).1⟩

/-- Reading a listed address of a memory with entries dropped. -/
theorem memRead_filter (m : Memory) (p : Host.Cell → Bool) (a : Nat) (h : ∀ v, p (a, v) = true) :
    memRead (m.filter p) a = memRead m a := by
  induction m with
  | nil => rfl
  | cons c rest ih =>
    obtain ⟨k, w⟩ := c
    by_cases hk : a = k
    · subst hk
      simp [h, memRead]
    · by_cases hp : p (k, w) = true
      · simp [hp, memRead, hk, ih]
      · simp [hp, memRead, hk, ih]

/-- A byte that a filter drops is not listed any more. -/
theorem memRead_filter_of_false (m : Memory) (p : Host.Cell → Bool) (a : Nat) (h : ∀ v, p (a, v) = false) :
    memRead (m.filter p) a = none := by
  induction m with
  | nil => rfl
  | cons c rest ih =>
    obtain ⟨k, w⟩ := c
    by_cases hk : a = k
    · subst hk; simp [h, ih]
    · by_cases hp : p (k, w) = true <;> simp [hp, memRead, hk, ih]

/-! ## The access primitives -/

theorem touch_cases (x : Word) (s : State) :
    (s.isMemory x = true ∧ touch x s = s) ∨
    (s.kind x = .io ∧ touch x s = { s with io := .read x :: s.io }) ∨
    (s.kind x = .nothing ∧ touch x s = { s with draws := s.draws + 1 }) := by
  unfold touch State.isMemory
  cases h : s.kind x <;> simp

theorem store_cases (x : Word) (v : Byte) (s : State) :
    (s.kind x = .ram ∧ store x v s = { s with mem := memWrite s.mem x.toNat v }) ∨
    (s.kind x = .io ∧ store x v s = { s with io := .write x v :: s.io }) ∨
    ((s.kind x = .rom ∨ s.kind x = .nothing) ∧ store x v s = s) := by
  unfold store
  cases h : s.kind x <;> simp

@[simp] theorem kind_touch (x y : Word) (s : State) : (touch x s).kind y = s.kind y := kind_eq_of_cfg (by simp) y
@[simp] theorem kind_store (x y : Word) (v : Byte) (s : State) : (store x v s).kind y = s.kind y :=
  kind_eq_of_cfg (by simp) y
@[simp] theorem kind_push (y : Word) (v : Byte) (s : State) : (push v s).kind y = s.kind y :=
  kind_eq_of_cfg (by simp) y
@[simp] theorem kind_pulled (y : Word) (s : State) : (pulled s).kind y = s.kind y := kind_eq_of_cfg (by simp) y

/-- The bytes of memory depend on the memory, the RAM generation and the configuration alone. -/
theorem memByte_congr {s t : State} (hm : t.mem = s.mem) (hg : t.generation = s.generation) (hc : t.cfg = s.cfg)
    (x : Word) : t.memByte x = s.memByte x := by
  simp [State.memByte, hm, hg, kind_eq_of_cfg hc]

@[simp] theorem memByte_touch (x y : Word) (s : State) : (touch x s).memByte y = s.memByte y :=
  memByte_congr (by simp) (by simp) (by simp) y
@[simp] theorem memByte_touch16 (x y : Word) (s : State) : (touch16 x s).memByte y = s.memByte y :=
  memByte_congr (by simp) (by simp) (by simp) y
@[simp] theorem memByte_pulled (y : Word) (s : State) : (pulled s).memByte y = s.memByte y :=
  memByte_congr (by simp) (by simp) (by simp) y
@[simp] theorem memByte_pulledWord (y : Word) (s : State) : (pulledWord s).memByte y = s.memByte y :=
  memByte_congr (by simp) (by simp) (by simp) y

/-- A store in RAM is read back. -/
theorem memByte_store_same {x : Word} {s : State} (h : s.kind x = .ram) (v : Byte) :
    (store x v s).memByte x = v := by
  rcases store_cases x v s with ⟨-, e⟩ | ⟨h', -⟩ | ⟨h' | h', -⟩
  · simp [e, State.memByte]
  all_goals simp [h] at h'

/-- A store leaves every other byte of memory. -/
theorem memByte_store_ne {x y : Word} (h : y ≠ x) (v : Byte) (s : State) :
    (store x v s).memByte y = s.memByte y := by
  rcases store_cases x v s with ⟨-, e⟩ | ⟨-, e⟩ | ⟨-, e⟩
  · have hn : y.toNat ≠ x.toNat := fun e => h (BitVec.eq_of_toNat_eq e)
    unfold State.memByte
    rw [kind_store, store_generation, e]
    simp only [memRead_memWrite_ne _ _ hn]
  · exact memByte_congr (by rw [e]) (by simp) (by simp) y
  · rw [e]

/-- A store to an address that is no RAM leaves every byte of memory. -/
theorem memByte_store_of_not_ram {x : Word} {s : State} (h : s.kind x ≠ .ram) (v : Byte) (y : Word) :
    (store x v s).memByte y = s.memByte y := by
  rcases store_cases x v s with ⟨h', -⟩ | ⟨-, e⟩ | ⟨-, e⟩
  · exact absurd h' h
  · exact memByte_congr (by rw [e]) (by simp) (by simp) y
  · rw [e]

/-- Reading memory gives its byte. -/
theorem peek_of_isMemory {x : Word} {s : State} (h : s.isMemory x = true) : peek x s = s.memByte x := by
  unfold State.isMemory at h
  unfold peek
  cases hk : s.kind x <;> simp_all

theorem touch_of_isMemory {x : Word} {s : State} (h : s.isMemory x = true) : touch x s = s := by
  unfold State.isMemory at h
  unfold touch
  cases hk : s.kind x <;> simp_all

theorem isMemory_of_ram {x : Word} {s : State} (h : s.kind x = .ram) : s.isMemory x = true := by
  simp [State.isMemory, h]

/-- A store keeps the canonical form of memory. -/
theorem store_wf {s : State} (h : Memory.wf s.mem = true) (x : Word) (v : Byte) :
    Memory.wf (store x v s).mem = true := by
  rcases store_cases x v s with ⟨-, e⟩ | ⟨-, e⟩ | ⟨-, e⟩
  · rw [e]; exact memWrite_wf h x.isLt
  · rw [e]; exact h
  · rw [e]; exact h

theorem store16_wf {s : State} (h : Memory.wf s.mem = true) (x v : Word) :
    Memory.wf (store16 x v s).mem = true := store_wf (store_wf h _ _) _ _

theorem push_wf {s : State} (h : Memory.wf s.mem = true) (v : Byte) : Memory.wf (push v s).mem = true := by
  simpa [push] using store_wf h s.sp v

theorem pushWord_wf {s : State} (h : Memory.wf s.mem = true) (v : Word) : Memory.wf (pushWord v s).mem = true :=
  push_wf (push_wf h _) _

theorem stackFrame_wf {s : State} (h : Memory.wf s.mem = true) (ret : Word) :
    Memory.wf (stackFrame ret s).mem = true :=
  push_wf (push_wf (push_wf (pushWord_wf (pushWord_wf (pushWord_wf h _) _) _) _) _) _

theorem forgetRam_wf {s : State} (h : Memory.wf s.mem = true) : Memory.wf (forgetRam s).mem = true := filter_wf _ h

/-- The memory after reset has the canonical form. -/
theorem reset_memory_wf : Memory.wf State.reset.mem = true := rfl

theorem placeBytes_wf (bs : List Byte) (x : Word) (s : State) (h : Memory.wf s.mem = true) :
    Memory.wf (placeBytes bs x s).mem = true := by
  induction bs generalizing x s with
  | nil => exact h
  | cons v rest ih => exact ih (x + 1) _ (memWrite_wf h x.isLt)

/-- ROM bytes survive a store: a write to ROM is discarded. -/
theorem memRead_store_of_not_ram {x : Word} {s : State} (h : s.kind x ≠ .ram) (y : Word) (v : Byte) :
    memRead (store y v s).mem x.toNat = memRead s.mem x.toNat := by
  rcases store_cases y v s with ⟨h', e⟩ | ⟨-, e⟩ | ⟨-, e⟩
  · have hn : x.toNat ≠ y.toNat := fun e => h (BitVec.eq_of_toNat_eq e ▸ h')
    rw [e]; exact memRead_memWrite_ne _ _ hn
  · rw [e]
  · rw [e]

/-! ## What an access depends on -/

theorem store_mem_congr {s t : State} (hc : t.cfg = s.cfg) (hm : t.mem = s.mem) (x : Word) (v : Byte) :
    (store x v t).mem = (store x v s).mem := by
  unfold store
  rw [kind_eq_of_cfg hc]
  cases s.kind x <;> simp [hm]

theorem store_io_congr {s t : State} (hc : t.cfg = s.cfg) (hi : t.io = s.io) (x : Word) (v : Byte) :
    (store x v t).io = (store x v s).io := by
  unfold store
  rw [kind_eq_of_cfg hc]
  cases s.kind x <;> simp [hi]

theorem touch_io_congr {s t : State} (hc : t.cfg = s.cfg) (hi : t.io = s.io) (x : Word) :
    (touch x t).io = (touch x s).io := by
  unfold touch
  rw [kind_eq_of_cfg hc]
  cases s.kind x <;> simp [hi]

theorem touch_draws_congr {s t : State} (hc : t.cfg = s.cfg) (hd : t.draws = s.draws) (x : Word) :
    (touch x t).draws = (touch x s).draws := by
  unfold touch
  rw [kind_eq_of_cfg hc]
  cases s.kind x <;> simp [hd]

/-- What a read answers depends on memory, the RAM generation, the configuration, the I/O history and the count of free
values alone. -/
theorem peek_congr {s t : State} (hm : t.mem = s.mem) (hg : t.generation = s.generation) (hc : t.cfg = s.cfg)
    (hi : t.io = s.io) (hd : t.draws = s.draws) (x : Word) : peek x t = peek x s := by
  unfold peek
  rw [kind_eq_of_cfg hc, memByte_congr hm hg hc]
  cases s.kind x <;> simp [hi, hd]

theorem peek16_congr {s t : State} (hm : t.mem = s.mem) (hg : t.generation = s.generation) (hc : t.cfg = s.cfg)
    (hi : t.io = s.io) (hd : t.draws = s.draws) (x : Word) : peek16 x t = peek16 x s := by
  unfold peek16
  rw [peek_congr hm hg hc hi hd, peek_congr (by simpa using hm) (by simpa using hg) (by simpa using hc)
    (touch_io_congr hc hi x) (touch_draws_congr hc hd x)]

end Sys2Proof.Machine
end

