-- ==== Sys2Proof/Laws/Stack.lean ====
section
/-!
SUPPORT. The laws of the stack: where a push, a pushed word and the nine bytes of an entry lie, and what a pull reads.
-/

namespace Sys2Proof.Machine

/-! ## Addresses -/

theorem sub_one_sub_one (x : Word) : x - 1 - 1 = x - 2 := by
  apply BitVec.eq_of_toNat_eq
  rw [BitVec.toNat_sub, BitVec.toNat_sub, BitVec.toNat_sub]
  have := x.isLt
  simp
  omega

theorem add_one_add_one (x : Word) : x + 1 + 1 = x + 2 := by
  rw [BitVec.add_assoc]; rfl

theorem ne_add_one (x : Word) : x ≠ x + 1 := by
  intro h
  have h2 := congrArg BitVec.toNat h
  have := x.isLt
  rw [BitVec.toNat_add] at h2
  change x.toNat = (x.toNat + 1) % 65536 at h2
  omega

theorem ne_sub_one (x : Word) : x ≠ x - 1 := by
  intro h
  have := congrArg BitVec.toNat h
  rw [BitVec.toNat_sub] at this
  have := x.isLt
  simp at *
  omega

theorem sub_succ (x : Word) (k : Nat) : x - BitVec.ofNat 16 (k + 1) = x - 1 - BitVec.ofNat 16 k := by
  have h := x.isLt
  apply BitVec.eq_of_toNat_eq
  rw [BitVec.toNat_sub, BitVec.toNat_sub, BitVec.toNat_sub]
  simp only [BitVec.toNat_ofNat]
  change (2 ^ 16 - (k + 1) % 2 ^ 16 + x.toNat) % 2 ^ 16 =
    (2 ^ 16 - k % 2 ^ 16 + (2 ^ 16 - 1 + x.toNat) % 2 ^ 16) % 2 ^ 16
  omega

theorem sub_ofNat_inj (x : Word) {j k : Nat} (hj : j < 65536) (hk : k < 65536)
    (h : x - BitVec.ofNat 16 j = x - BitVec.ofNat 16 k) : j = k := by
  have h2 := congrArg BitVec.toNat h
  have := x.isLt
  rw [BitVec.toNat_sub, BitVec.toNat_sub] at h2
  simp only [BitVec.toNat_ofNat] at h2
  omega

/-! ## Stores -/

/-- What a store has done to the byte at its address. -/
theorem stored_store {s s' t : State} {x : Word} {v : Byte} (hc : s'.cfg = s.cfg) (hm : s'.mem = s.mem)
    (hg : s'.generation = s.generation) (ht : ∀ y, t.memByte y = (store x v s').memByte y) : Stored s t x v := by
  refine ⟨fun h => ?_, fun h => ?_⟩
  · rw [ht, memByte_store_same (by rw [kind_eq_of_cfg hc, h])]
  · rw [ht, memByte_store_of_not_ram (by rw [kind_eq_of_cfg hc]; exact h), memByte_congr hm hg hc]

/-- What two stores to different addresses have done. -/
theorem stored_two {s s' t : State} {x y : Word} {v w : Byte} (hxy : x ≠ y) (hc : s'.cfg = s.cfg)
    (hm : s'.mem = s.mem) (hg : s'.generation = s.generation)
    (ht : ∀ z, t.memByte z = (store y w (store x v s')).memByte z) : Stored s t x v ∧ Stored s t y w := by
  have h1 : Stored s (store x v s') x v := stored_store hc hm hg fun _ => rfl
  have e : t.memByte x = (store x v s').memByte x := by rw [ht, memByte_store_ne hxy]
  refine ⟨⟨fun h => by rw [e]; exact h1.1 h, fun h => by rw [e]; exact h1.2 h⟩, fun h => ?_, fun h => ?_⟩
  · rw [ht, memByte_store_same (by rw [kind_store, kind_eq_of_cfg hc, h])]
  · rw [ht, memByte_store_of_not_ram (by rw [kind_store, kind_eq_of_cfg hc]; exact h),
      memByte_store_ne hxy.symm, memByte_congr hm hg hc]

/-- The memory after a word is pushed. -/
theorem memByte_pushWord (v : Word) (s : State) (y : Word) :
    (pushWord v s).memByte y = (store (s.sp - 1) (hiByte v) (store s.sp (loByte v) s)).memByte y := by
  apply memByte_congr
  · simp only [pushWord]
    rw [show (push (hiByte v) (push (loByte v) s)).mem =
      (store (push (loByte v) s).sp (hiByte v) (push (loByte v) s)).mem from rfl, push_sp]
    exact store_mem_congr (s := store s.sp (loByte v) s) (t := push (loByte v) s) (by simp) rfl _ _
  · simp
  · simp

/-- The I/O accesses after a word is pushed. -/
theorem pushWord_io (v : Word) (s : State) :
    (pushWord v s).io = (store (s.sp - 1) (hiByte v) (store s.sp (loByte v) s)).io := by
  simp only [pushWord]
  rw [show (push (hiByte v) (push (loByte v) s)).io =
    (store (push (loByte v) s).sp (hiByte v) (push (loByte v) s)).io from rfl, push_sp]
  exact store_io_congr (s := store s.sp (loByte v) s) (t := push (loByte v) s) (by simp) rfl _ _

/-! ## Pulls -/

theorem pulledWord_sp_two (s : State) : (pulledWord s).sp = s.sp + 2 := by
  rw [← add_one_add_one]; rfl

/-- A pulled word is the word read above SP. -/
theorem pullWordValue_eq (s : State) : pullWordValue s = peek16 (s.sp + 1) s := by
  unfold pullWordValue peek16 pullValue
  rw [peek_congr (s := touch (s.sp + 1) s) (t := pulled s) rfl rfl rfl rfl rfl]; rfl

theorem pulledWord_io (s : State) : (pulledWord s).io = (touch16 (s.sp + 1) s).io :=
  touch_io_congr (t := pulled s) (s := touch (s.sp + 1) s) rfl rfl _

theorem pulledWord_draws (s : State) : (pulledWord s).draws = (touch16 (s.sp + 1) s).draws :=
  touch_draws_congr (t := pulled s) (s := touch (s.sp + 1) s) rfl rfl _

/-! ## Memory that a read leaves alone -/

theorem isMemory_of_inMemory_two {s : State} {x : Word} (h : s.inMemory x 2 = true) :
    s.isMemory x = true ∧ s.isMemory (x + 1) = true := by
  simpa only [State.inMemory, Bool.and_true, Bool.and_eq_true] using h

/-- A word read from memory, and the state after it. -/
theorem peek16_of_inMemory {s : State} {x : Word} (h : s.inMemory x 2 = true) :
    peek16 x s = join (s.memByte x) (s.memByte (x + 1)) ∧ touch16 x s = s := by
  obtain ⟨h1, h2⟩ := isMemory_of_inMemory_two h
  unfold peek16 touch16
  rw [touch_of_isMemory h1, peek_of_isMemory h1, peek_of_isMemory h2, touch_of_isMemory h2]
  exact ⟨rfl, rfl⟩

/-! ## A list of bytes pushed in order -/

/-- Push the bytes of a list, the first one first. -/
def pushAll : List Byte → State → State
  | [], s => s
  | v :: l, s => pushAll l (push v s)

theorem memByte_pushAll (l : List Byte) (s : State) (x : Word)
    (h : ∀ k < l.length, x ≠ s.sp - BitVec.ofNat 16 k) : (pushAll l s).memByte x = s.memByte x := by
  induction l generalizing s with
  | nil => rfl
  | cons v l ih =>
    rw [pushAll, ih]
    · have h0 := h 0 (by simp)
      rw [show s.sp - BitVec.ofNat 16 0 = s.sp by simp] at h0
      exact memByte_store_ne h0 v s
    · intro k hk
      rw [push_sp, ← sub_succ]
      exact h (k + 1) (by simpa using hk)

theorem stored_pushAll (l : List Byte) (s : State) (hl : l.length ≤ 1000) (k : Nat) (hk : k < l.length) :
    Stored s (pushAll l s) (s.sp - BitVec.ofNat 16 k) l[k] := by
  induction l generalizing s k with
  | nil => simp at hk
  | cons v l ih =>
    simp at hl hk
    cases k with
    | zero =>
      have h1 : Stored s (push v s) s.sp v := stored_store rfl rfl rfl (fun _ => rfl)
      have e : (pushAll (v :: l) s).memByte s.sp = (push v s).memByte s.sp := by
        rw [pushAll, memByte_pushAll]
        intro j hj he
        rw [push_sp, ← sub_succ] at he
        have := sub_ofNat_inj s.sp (j := 0) (k := j + 1) (by omega) (by omega) (by rw [← he]; simp)
        omega
      rw [show s.sp - BitVec.ofNat 16 0 = s.sp by simp]
      exact ⟨fun h => by rw [e]; exact h1.1 h, fun h => by rw [e]; exact h1.2 h⟩
    | succ k =>
      have := ih (push v s) (by omega) k (by omega)
      rw [push_sp, ← sub_succ] at this
      refine ⟨fun h => this.1 (by rw [kind_push, h]), fun h => ?_⟩
      show (pushAll l (push v s)).memByte _ = _
      rw [this.2 (by rw [kind_push]; exact h)]
      refine memByte_store_ne (fun he => ?_) v s
      have := sub_ofNat_inj s.sp (j := k + 1) (k := 0) (by omega) (by omega) (by rw [he]; simp)
      omega

/-! ## The nine bytes of an entry -/

theorem stackFrame_eq_pushAll (ret : Word) (s : State) : stackFrame ret s = pushAll (frameBytes ret s) s := by
  simp [frameBytes, pushAll, stackFrame, pushWord]

theorem frameAddresses_eq (s : State) :
    frameAddresses s = (List.range 9).map (fun k => s.sp - BitVec.ofNat 16 k) := by
  simp [frameAddresses, List.range_succ]

theorem stackFrame_stored (ret : Word) (s : State) :
    ∀ p ∈ (frameAddresses s).zip (frameBytes ret s), Stored s (stackFrame ret s) p.1 p.2 := by
  have h := stored_pushAll (frameBytes ret s) s (by simp [frameBytes])
  rw [← stackFrame_eq_pushAll] at h
  intro p hp
  rw [frameAddresses_eq] at hp
  obtain ⟨k, hk, rfl⟩ := List.mem_iff_getElem.1 hp
  have hk9 : k < 9 := by simp [frameBytes] at hk; omega
  rw [List.getElem_zip]
  simpa using h k (by simpa [frameBytes] using hk9)

theorem memByte_stackFrame (ret : Word) (s : State) (x : Word) (h : x ∉ frameAddresses s) :
    (stackFrame ret s).memByte x = s.memByte x := by
  rw [stackFrame_eq_pushAll]
  apply memByte_pushAll
  intro k hk he
  apply h
  rw [frameAddresses_eq, List.mem_map]
  exact ⟨k, by simpa [frameBytes] using hk, he.symm⟩

/-- A state with the memory an entry leaves and SP nine lower holds the frame. -/
theorem holdsFrame_of {ret : Word} {s t : State} (hsp : t.sp = (stackFrame ret s).sp)
    (hm : ∀ x, t.memByte x = (stackFrame ret s).memByte x) : HoldsFrame ret s t := by
  refine ⟨by rw [hsp, stackFrame_sp]; rfl, fun p hp => ⟨fun h => ?_, fun h => ?_⟩⟩
  · rw [hm]; exact (stackFrame_stored ret s p hp).1 h
  · rw [hm]; exact (stackFrame_stored ret s p hp).2 h

end Sys2Proof.Machine
end

