-- ==== Sys2Proof/Laws/Entry.lean ====
section
/-!
SUPPORT. The laws of taking an exception: what `enterVector` and `takeInterrupt` do, once and for all. Both are long
chains of record updates; cite these lemmas and do not unfold them.
-/

namespace Sys2Proof.Machine

variable (vector : Word) (setX : Bool)

/-! ## The second half of an entry -/

/-- The state an entry reads its vector in has the accesses behind it that the state before has. -/
theorem touch16_ccr_io (x : Word) (c : Byte) (s : State) :
    (touch16 x { s with ccr := c }).io = (touch16 x s).io :=
  touch_io_congr (t := touch x { s with ccr := c }) (s := touch x s) (by simp)
    (touch_io_congr (t := { s with ccr := c }) (s := s) rfl rfl x) _

theorem touch16_ccr_draws (x : Word) (c : Byte) (s : State) :
    (touch16 x { s with ccr := c }).draws = (touch16 x s).draws :=
  touch_draws_congr (t := touch x { s with ccr := c }) (s := touch x s) (by simp)
    (touch_draws_congr (t := { s with ccr := c }) (s := s) rfl rfl x) _

theorem enterVector_pc (s : State) : (enterVector vector setX s).pc = peek16 (vec s.cfg.mode vector) s :=
  peek16_congr (t := { s with ccr := putFlag (if setX then putFlag s.ccr .x true else s.ccr) .i true }) (s := s)
    rfl rfl rfl rfl rfl _

theorem enterVector_io (s : State) :
    (enterVector vector setX s).io = (touch16 (vec s.cfg.mode vector) s).io := touch16_ccr_io _ _ _

theorem enterVector_draws (s : State) :
    (enterVector vector setX s).draws = (touch16 (vec s.cfg.mode vector) s).draws := touch16_ccr_draws _ _ _

theorem enterVector_flag (s : State) (f : Flag) :
    (enterVector vector setX s).flag f =
      if f = .i then true else if f = .x then setX || s.flag .x else s.flag f := by
  simp only [State.flag, enterVector_ccr]
  cases setX <;> cases f <;> simp

/-! ## The whole entry -/

variable (ret : Word) (s : State)

@[simp] theorem takeInterrupt_a : (takeInterrupt vector setX ret s).a = s.a := by
  unfold takeInterrupt; rw [enterVector_a, stackFrame_a]
@[simp] theorem takeInterrupt_b : (takeInterrupt vector setX ret s).b = s.b := by
  unfold takeInterrupt; rw [enterVector_b, stackFrame_b]
@[simp] theorem takeInterrupt_ix : (takeInterrupt vector setX ret s).ix = s.ix := by
  unfold takeInterrupt; rw [enterVector_ix, stackFrame_ix]
@[simp] theorem takeInterrupt_iy : (takeInterrupt vector setX ret s).iy = s.iy := by
  unfold takeInterrupt; rw [enterVector_iy, stackFrame_iy]
@[simp] theorem takeInterrupt_lastReset : (takeInterrupt vector setX ret s).lastReset = s.lastReset := by
  unfold takeInterrupt; rw [enterVector_lastReset, stackFrame_lastReset]
@[simp] theorem takeInterrupt_lines : (takeInterrupt vector setX ret s).lines = s.lines := by
  unfold takeInterrupt; rw [enterVector_lines, stackFrame_lines]
@[simp] theorem takeInterrupt_script : (takeInterrupt vector setX ret s).script = s.script := by
  unfold takeInterrupt; rw [enterVector_script, stackFrame_script]
@[simp] theorem takeInterrupt_lateClear : (takeInterrupt vector setX ret s).lateClear = s.lateClear := by
  unfold takeInterrupt; rw [enterVector_lateClear, stackFrame_lateClear]
@[simp] theorem takeInterrupt_generation : (takeInterrupt vector setX ret s).generation = s.generation := by
  unfold takeInterrupt; rw [enterVector_generation, stackFrame_generation]
@[simp] theorem takeInterrupt_cfg : (takeInterrupt vector setX ret s).cfg = s.cfg := by
  unfold takeInterrupt; rw [enterVector_cfg, stackFrame_cfg]
@[simp] theorem takeInterrupt_run : (takeInterrupt vector setX ret s).run = .running := by
  unfold takeInterrupt; rw [enterVector_run]
theorem takeInterrupt_sp : (takeInterrupt vector setX ret s).sp = (stackFrame ret s).sp := by
  unfold takeInterrupt; rw [enterVector_sp]
theorem takeInterrupt_mem : (takeInterrupt vector setX ret s).mem = (stackFrame ret s).mem := by
  unfold takeInterrupt; rw [enterVector_mem]
theorem takeInterrupt_memByte (x : Word) :
    (takeInterrupt vector setX ret s).memByte x = (stackFrame ret s).memByte x :=
  memByte_congr (takeInterrupt_mem _ _ _ _) (by rw [takeInterrupt_generation, stackFrame_generation])
    (by rw [takeInterrupt_cfg, stackFrame_cfg]) x
theorem takeInterrupt_pc :
    (takeInterrupt vector setX ret s).pc = peek16 (vec s.cfg.mode vector) (stackFrame ret s) := by
  unfold takeInterrupt; rw [enterVector_pc, stackFrame_cfg]
theorem takeInterrupt_io :
    (takeInterrupt vector setX ret s).io = (touch16 (vec s.cfg.mode vector) (stackFrame ret s)).io := by
  unfold takeInterrupt; rw [enterVector_io, stackFrame_cfg]
theorem takeInterrupt_draws :
    (takeInterrupt vector setX ret s).draws = (touch16 (vec s.cfg.mode vector) (stackFrame ret s)).draws := by
  unfold takeInterrupt; rw [enterVector_draws, stackFrame_cfg]
theorem takeInterrupt_flag (f : Flag) :
    (takeInterrupt vector setX ret s).flag f =
      if f = .i then true else if f = .x then setX || s.flag .x else s.flag f := by
  unfold takeInterrupt; rw [enterVector_flag]; simp only [State.flag, stackFrame_ccr]
theorem takeInterrupt_wf (h : Memory.wf s.mem = true) :
    Memory.wf (takeInterrupt vector setX ret s).mem = true := by
  rw [takeInterrupt_mem]; exact stackFrame_wf h ret

/-- A frame from equalities of the fields, for a state whose SP alone of the registers has changed. -/
theorem frame_sp_of {s t : State} {flags : List Flag} {stored : List Word} (ha : t.a = s.a) (hb : t.b = s.b)
    (hx : t.ix = s.ix) (hy : t.iy = s.iy) (hf : ∀ f, f ∉ flags → t.flag f = s.flag f)
    (hm : ∀ x, x ∉ stored → t.memByte x = s.memByte x) (h1 : t.lastReset = s.lastReset) (h2 : t.lines = s.lines)
    (h3 : t.script = s.script) (h4 : t.generation = s.generation) (h5 : t.cfg = s.cfg) :
    Frame [.sp] flags stored s t := by
  refine ⟨?_, hf, hm, h1, h2, h3, h4, h5⟩
  intro q hq
  cases q <;> simp_all [State.reg]

/-- Everything `takeInterrupt` does (60_exceptions.md R336). -/
theorem takeInterrupt_entered : Entered vector setX ret s (takeInterrupt vector setX ret s) where
  frame := holdsFrame_of (takeInterrupt_sp _ _ _ _) (takeInterrupt_memByte _ _ _ _)
  unchanged :=
    frame_sp_of (takeInterrupt_a _ _ _ _) (takeInterrupt_b _ _ _ _) (takeInterrupt_ix _ _ _ _)
      (takeInterrupt_iy _ _ _ _)
      (fun f hf => by
        rw [takeInterrupt_flag]
        simp only [List.mem_cons, List.not_mem_nil, or_false, not_or] at hf
        simp [hf])
      (fun x hx => by rw [takeInterrupt_memByte]; exact memByte_stackFrame _ _ _ hx)
      (takeInterrupt_lastReset _ _ _ _) (takeInterrupt_lines _ _ _ _) (takeInterrupt_script _ _ _ _)
      (takeInterrupt_generation _ _ _ _) (takeInterrupt_cfg _ _ _ _)
  maskI := by rw [takeInterrupt_flag]; simp
  maskX := by rw [takeInterrupt_flag]; simp
  pc := takeInterrupt_pc _ _ _ _
  run := takeInterrupt_run _ _ _ _
  lateClear := takeInterrupt_lateClear _ _ _ _
  accesses := ⟨takeInterrupt_io _ _ _ _, takeInterrupt_draws _ _ _ _⟩

end Sys2Proof.Machine
end

