-- ==== Sys2Proof/Laws/Operands.lean ====
section
/-!
SUPPORT. What each shared operand access and each shared shape of instruction does: its result, and what it leaves
unchanged. Later proofs cite these and unfold none of them.
-/

namespace Sys2Proof.Machine

variable (s : State)

/-! ## Operand accesses: a memory operand is read, an immediate is not -/

@[simp] theorem afterOperand8_imm (v : Byte) : afterOperand8 (.imm v) s = s := rfl
@[simp] theorem operand8_imm (v : Byte) : operand8 (.imm v) s = v := rfl
@[simp] theorem afterOperand16_imm (v : Word) : afterOperand16 (.imm v) s = s := rfl
@[simp] theorem operand16_imm (v : Word) : operand16 (.imm v) s = v := rfl
@[simp] theorem afterOperand8_a (op : Operand8) : (afterOperand8 op s).a = s.a := by cases op <;> simp [afterOperand8]
@[simp] theorem afterOperand16_a (op : Operand16) : (afterOperand16 op s).a = s.a := by cases op <;> simp [afterOperand16]
@[simp] theorem afterOperand8_b (op : Operand8) : (afterOperand8 op s).b = s.b := by cases op <;> simp [afterOperand8]
@[simp] theorem afterOperand16_b (op : Operand16) : (afterOperand16 op s).b = s.b := by cases op <;> simp [afterOperand16]
@[simp] theorem afterOperand8_ix (op : Operand8) : (afterOperand8 op s).ix = s.ix := by cases op <;> simp [afterOperand8]
@[simp] theorem afterOperand16_ix (op : Operand16) : (afterOperand16 op s).ix = s.ix := by cases op <;> simp [afterOperand16]
@[simp] theorem afterOperand8_iy (op : Operand8) : (afterOperand8 op s).iy = s.iy := by cases op <;> simp [afterOperand8]
@[simp] theorem afterOperand16_iy (op : Operand16) : (afterOperand16 op s).iy = s.iy := by cases op <;> simp [afterOperand16]
@[simp] theorem afterOperand8_sp (op : Operand8) : (afterOperand8 op s).sp = s.sp := by cases op <;> simp [afterOperand8]
@[simp] theorem afterOperand16_sp (op : Operand16) : (afterOperand16 op s).sp = s.sp := by cases op <;> simp [afterOperand16]
@[simp] theorem afterOperand8_pc (op : Operand8) : (afterOperand8 op s).pc = s.pc := by cases op <;> simp [afterOperand8]
@[simp] theorem afterOperand16_pc (op : Operand16) : (afterOperand16 op s).pc = s.pc := by cases op <;> simp [afterOperand16]
@[simp] theorem afterOperand8_ccr (op : Operand8) : (afterOperand8 op s).ccr = s.ccr := by cases op <;> simp [afterOperand8]
@[simp] theorem afterOperand16_ccr (op : Operand16) : (afterOperand16 op s).ccr = s.ccr := by cases op <;> simp [afterOperand16]
@[simp] theorem afterOperand8_run (op : Operand8) : (afterOperand8 op s).run = s.run := by cases op <;> simp [afterOperand8]
@[simp] theorem afterOperand16_run (op : Operand16) : (afterOperand16 op s).run = s.run := by cases op <;> simp [afterOperand16]
@[simp] theorem afterOperand8_lastReset (op : Operand8) : (afterOperand8 op s).lastReset = s.lastReset := by cases op <;> simp [afterOperand8]
@[simp] theorem afterOperand16_lastReset (op : Operand16) : (afterOperand16 op s).lastReset = s.lastReset := by cases op <;> simp [afterOperand16]
@[simp] theorem afterOperand8_mem (op : Operand8) : (afterOperand8 op s).mem = s.mem := by cases op <;> simp [afterOperand8]
@[simp] theorem afterOperand16_mem (op : Operand16) : (afterOperand16 op s).mem = s.mem := by cases op <;> simp [afterOperand16]
@[simp] theorem afterOperand8_lines (op : Operand8) : (afterOperand8 op s).lines = s.lines := by cases op <;> simp [afterOperand8]
@[simp] theorem afterOperand16_lines (op : Operand16) : (afterOperand16 op s).lines = s.lines := by cases op <;> simp [afterOperand16]
@[simp] theorem afterOperand8_script (op : Operand8) : (afterOperand8 op s).script = s.script := by cases op <;> simp [afterOperand8]
@[simp] theorem afterOperand16_script (op : Operand16) : (afterOperand16 op s).script = s.script := by cases op <;> simp [afterOperand16]
@[simp] theorem afterOperand8_lateClear (op : Operand8) : (afterOperand8 op s).lateClear = s.lateClear := by cases op <;> simp [afterOperand8]
@[simp] theorem afterOperand16_lateClear (op : Operand16) : (afterOperand16 op s).lateClear = s.lateClear := by cases op <;> simp [afterOperand16]
@[simp] theorem afterOperand8_generation (op : Operand8) : (afterOperand8 op s).generation = s.generation := by cases op <;> simp [afterOperand8]
@[simp] theorem afterOperand16_generation (op : Operand16) : (afterOperand16 op s).generation = s.generation := by cases op <;> simp [afterOperand16]
@[simp] theorem afterOperand8_cfg (op : Operand8) : (afterOperand8 op s).cfg = s.cfg := by cases op <;> simp [afterOperand8]
@[simp] theorem afterOperand16_cfg (op : Operand16) : (afterOperand16 op s).cfg = s.cfg := by cases op <;> simp [afterOperand16]
@[simp] theorem memByte_afterOperand8 (op : Operand8) (y : Word) :
    (afterOperand8 op s).memByte y = s.memByte y :=
  memByte_congr (by simp) (by simp) (by simp) y
@[simp] theorem memByte_afterOperand16 (op : Operand16) (y : Word) :
    (afterOperand16 op s).memByte y = s.memByte y :=
  memByte_congr (by simp) (by simp) (by simp) y

/-! ## Accumulator and operand -/

@[simp] theorem accOp_ix (r : Acc) (f : Byte → Byte → Byte → Res8) (op : Operand8) :
    (accOp r f op s).ix = s.ix := by simp [accOp]
@[simp] theorem accOp_iy (r : Acc) (f : Byte → Byte → Byte → Res8) (op : Operand8) :
    (accOp r f op s).iy = s.iy := by simp [accOp]
@[simp] theorem accOp_sp (r : Acc) (f : Byte → Byte → Byte → Res8) (op : Operand8) :
    (accOp r f op s).sp = s.sp := by simp [accOp]
@[simp] theorem accOp_pc (r : Acc) (f : Byte → Byte → Byte → Res8) (op : Operand8) :
    (accOp r f op s).pc = s.pc := by simp [accOp]
@[simp] theorem accOp_run (r : Acc) (f : Byte → Byte → Byte → Res8) (op : Operand8) :
    (accOp r f op s).run = s.run := by simp [accOp]
@[simp] theorem accOp_lastReset (r : Acc) (f : Byte → Byte → Byte → Res8) (op : Operand8) :
    (accOp r f op s).lastReset = s.lastReset := by simp [accOp]
@[simp] theorem accOp_mem (r : Acc) (f : Byte → Byte → Byte → Res8) (op : Operand8) :
    (accOp r f op s).mem = s.mem := by simp [accOp]
@[simp] theorem accOp_lines (r : Acc) (f : Byte → Byte → Byte → Res8) (op : Operand8) :
    (accOp r f op s).lines = s.lines := by simp [accOp]
@[simp] theorem accOp_script (r : Acc) (f : Byte → Byte → Byte → Res8) (op : Operand8) :
    (accOp r f op s).script = s.script := by simp [accOp]
@[simp] theorem accOp_lateClear (r : Acc) (f : Byte → Byte → Byte → Res8) (op : Operand8) :
    (accOp r f op s).lateClear = s.lateClear := by simp [accOp]
@[simp] theorem accOp_generation (r : Acc) (f : Byte → Byte → Byte → Res8) (op : Operand8) :
    (accOp r f op s).generation = s.generation := by simp [accOp]
@[simp] theorem accOp_cfg (r : Acc) (f : Byte → Byte → Byte → Res8) (op : Operand8) :
    (accOp r f op s).cfg = s.cfg := by simp [accOp]
@[simp] theorem accOp_io (r : Acc) (f : Byte → Byte → Byte → Res8) (op : Operand8) :
    (accOp r f op s).io = (afterOperand8 op s).io := by simp [accOp]
@[simp] theorem accOp_draws (r : Acc) (f : Byte → Byte → Byte → Res8) (op : Operand8) :
    (accOp r f op s).draws = (afterOperand8 op s).draws := by simp [accOp]
@[simp] theorem memByte_accOp (r : Acc) (f : Byte → Byte → Byte → Res8) (op : Operand8) (y : Word) :
    (accOp r f op s).memByte y = s.memByte y :=
  memByte_congr (by simp) (by simp) (by simp) y
@[simp] theorem accOp_ccr (r : Acc) (f : Byte → Byte → Byte → Res8) (op : Operand8) :
    (accOp r f op s).ccr = (f (s.acc r) (operand8 op s) s.ccr).ccr := rfl
@[simp] theorem accOp_acc (r : Acc) (f : Byte → Byte → Byte → Res8) (op : Operand8) :
    (accOp r f op s).acc r = (f (s.acc r) (operand8 op s) s.ccr).val := by cases r <;> rfl
@[simp] theorem accOp_a_b (f : Byte → Byte → Byte → Res8) (op : Operand8) :
    (accOp .a f op s).b = s.b := by simp [accOp]
@[simp] theorem accOp_b_a (f : Byte → Byte → Byte → Res8) (op : Operand8) :
    (accOp .b f op s).a = s.a := by simp [accOp]
@[simp] theorem accOp_a_a (f : Byte → Byte → Byte → Res8) (op : Operand8) :
    (accOp .a f op s).a = (f s.a (operand8 op s) s.ccr).val := rfl
@[simp] theorem accOp_b_b (f : Byte → Byte → Byte → Res8) (op : Operand8) :
    (accOp .b f op s).b = (f s.b (operand8 op s) s.ccr).val := rfl

/-! ## Accumulator test -/

@[simp] theorem accTest_a (r : Acc) (f : Byte → Byte → Byte → Byte) (op : Operand8) :
    (accTest r f op s).a = s.a := by simp [accTest]
@[simp] theorem accTest_b (r : Acc) (f : Byte → Byte → Byte → Byte) (op : Operand8) :
    (accTest r f op s).b = s.b := by simp [accTest]
@[simp] theorem accTest_ix (r : Acc) (f : Byte → Byte → Byte → Byte) (op : Operand8) :
    (accTest r f op s).ix = s.ix := by simp [accTest]
@[simp] theorem accTest_iy (r : Acc) (f : Byte → Byte → Byte → Byte) (op : Operand8) :
    (accTest r f op s).iy = s.iy := by simp [accTest]
@[simp] theorem accTest_sp (r : Acc) (f : Byte → Byte → Byte → Byte) (op : Operand8) :
    (accTest r f op s).sp = s.sp := by simp [accTest]
@[simp] theorem accTest_pc (r : Acc) (f : Byte → Byte → Byte → Byte) (op : Operand8) :
    (accTest r f op s).pc = s.pc := by simp [accTest]
@[simp] theorem accTest_run (r : Acc) (f : Byte → Byte → Byte → Byte) (op : Operand8) :
    (accTest r f op s).run = s.run := by simp [accTest]
@[simp] theorem accTest_lastReset (r : Acc) (f : Byte → Byte → Byte → Byte) (op : Operand8) :
    (accTest r f op s).lastReset = s.lastReset := by simp [accTest]
@[simp] theorem accTest_mem (r : Acc) (f : Byte → Byte → Byte → Byte) (op : Operand8) :
    (accTest r f op s).mem = s.mem := by simp [accTest]
@[simp] theorem accTest_lines (r : Acc) (f : Byte → Byte → Byte → Byte) (op : Operand8) :
    (accTest r f op s).lines = s.lines := by simp [accTest]
@[simp] theorem accTest_script (r : Acc) (f : Byte → Byte → Byte → Byte) (op : Operand8) :
    (accTest r f op s).script = s.script := by simp [accTest]
@[simp] theorem accTest_lateClear (r : Acc) (f : Byte → Byte → Byte → Byte) (op : Operand8) :
    (accTest r f op s).lateClear = s.lateClear := by simp [accTest]
@[simp] theorem accTest_generation (r : Acc) (f : Byte → Byte → Byte → Byte) (op : Operand8) :
    (accTest r f op s).generation = s.generation := by simp [accTest]
@[simp] theorem accTest_cfg (r : Acc) (f : Byte → Byte → Byte → Byte) (op : Operand8) :
    (accTest r f op s).cfg = s.cfg := by simp [accTest]
@[simp] theorem accTest_io (r : Acc) (f : Byte → Byte → Byte → Byte) (op : Operand8) :
    (accTest r f op s).io = (afterOperand8 op s).io := by simp [accTest]
@[simp] theorem accTest_draws (r : Acc) (f : Byte → Byte → Byte → Byte) (op : Operand8) :
    (accTest r f op s).draws = (afterOperand8 op s).draws := by simp [accTest]
@[simp] theorem memByte_accTest (r : Acc) (f : Byte → Byte → Byte → Byte) (op : Operand8) (y : Word) :
    (accTest r f op s).memByte y = s.memByte y :=
  memByte_congr (by simp) (by simp) (by simp) y
@[simp] theorem accTest_ccr (r : Acc) (f : Byte → Byte → Byte → Byte) (op : Operand8) :
    (accTest r f op s).ccr = f (s.acc r) (operand8 op s) s.ccr := rfl

/-! ## One accumulator -/

@[simp] theorem accUnary_ix (r : Acc) (f : Byte → Byte → Res8) :
    (accUnary r f s).ix = s.ix := by simp [accUnary]
@[simp] theorem accUnary_iy (r : Acc) (f : Byte → Byte → Res8) :
    (accUnary r f s).iy = s.iy := by simp [accUnary]
@[simp] theorem accUnary_sp (r : Acc) (f : Byte → Byte → Res8) :
    (accUnary r f s).sp = s.sp := by simp [accUnary]
@[simp] theorem accUnary_pc (r : Acc) (f : Byte → Byte → Res8) :
    (accUnary r f s).pc = s.pc := by simp [accUnary]
@[simp] theorem accUnary_run (r : Acc) (f : Byte → Byte → Res8) :
    (accUnary r f s).run = s.run := by simp [accUnary]
@[simp] theorem accUnary_lastReset (r : Acc) (f : Byte → Byte → Res8) :
    (accUnary r f s).lastReset = s.lastReset := by simp [accUnary]
@[simp] theorem accUnary_mem (r : Acc) (f : Byte → Byte → Res8) :
    (accUnary r f s).mem = s.mem := by simp [accUnary]
@[simp] theorem accUnary_lines (r : Acc) (f : Byte → Byte → Res8) :
    (accUnary r f s).lines = s.lines := by simp [accUnary]
@[simp] theorem accUnary_script (r : Acc) (f : Byte → Byte → Res8) :
    (accUnary r f s).script = s.script := by simp [accUnary]
@[simp] theorem accUnary_lateClear (r : Acc) (f : Byte → Byte → Res8) :
    (accUnary r f s).lateClear = s.lateClear := by simp [accUnary]
@[simp] theorem accUnary_io (r : Acc) (f : Byte → Byte → Res8) :
    (accUnary r f s).io = s.io := by simp [accUnary]
@[simp] theorem accUnary_draws (r : Acc) (f : Byte → Byte → Res8) :
    (accUnary r f s).draws = s.draws := by simp [accUnary]
@[simp] theorem accUnary_generation (r : Acc) (f : Byte → Byte → Res8) :
    (accUnary r f s).generation = s.generation := by simp [accUnary]
@[simp] theorem accUnary_cfg (r : Acc) (f : Byte → Byte → Res8) :
    (accUnary r f s).cfg = s.cfg := by simp [accUnary]
@[simp] theorem memByte_accUnary (r : Acc) (f : Byte → Byte → Res8) (y : Word) :
    (accUnary r f s).memByte y = s.memByte y :=
  memByte_congr (by simp) (by simp) (by simp) y
@[simp] theorem accUnary_ccr (r : Acc) (f : Byte → Byte → Res8) :
    (accUnary r f s).ccr = (f (s.acc r) s.ccr).ccr := rfl
@[simp] theorem accUnary_acc (r : Acc) (f : Byte → Byte → Res8) :
    (accUnary r f s).acc r = (f (s.acc r) s.ccr).val := by cases r <;> rfl
@[simp] theorem accUnary_a_a (f : Byte → Byte → Res8) : (accUnary .a f s).a = (f s.a s.ccr).val := rfl
@[simp] theorem accUnary_a_b (f : Byte → Byte → Res8) : (accUnary .a f s).b = s.b := rfl
@[simp] theorem accUnary_b_a (f : Byte → Byte → Res8) : (accUnary .b f s).a = s.a := rfl
@[simp] theorem accUnary_b_b (f : Byte → Byte → Res8) : (accUnary .b f s).b = (f s.b s.ccr).val := rfl

/-! ## Read, modify, write -/

@[simp] theorem readModifyWrite_a (m : Mem) (f : Byte → Byte → Res8) :
    (readModifyWrite m f s).a = s.a := by simp [readModifyWrite]
@[simp] theorem readModifyWrite_b (m : Mem) (f : Byte → Byte → Res8) :
    (readModifyWrite m f s).b = s.b := by simp [readModifyWrite]
@[simp] theorem readModifyWrite_ix (m : Mem) (f : Byte → Byte → Res8) :
    (readModifyWrite m f s).ix = s.ix := by simp [readModifyWrite]
@[simp] theorem readModifyWrite_iy (m : Mem) (f : Byte → Byte → Res8) :
    (readModifyWrite m f s).iy = s.iy := by simp [readModifyWrite]
@[simp] theorem readModifyWrite_sp (m : Mem) (f : Byte → Byte → Res8) :
    (readModifyWrite m f s).sp = s.sp := by simp [readModifyWrite]
@[simp] theorem readModifyWrite_pc (m : Mem) (f : Byte → Byte → Res8) :
    (readModifyWrite m f s).pc = s.pc := by simp [readModifyWrite]
@[simp] theorem readModifyWrite_run (m : Mem) (f : Byte → Byte → Res8) :
    (readModifyWrite m f s).run = s.run := by simp [readModifyWrite]
@[simp] theorem readModifyWrite_lastReset (m : Mem) (f : Byte → Byte → Res8) :
    (readModifyWrite m f s).lastReset = s.lastReset := by simp [readModifyWrite]
@[simp] theorem readModifyWrite_lines (m : Mem) (f : Byte → Byte → Res8) :
    (readModifyWrite m f s).lines = s.lines := by simp [readModifyWrite]
@[simp] theorem readModifyWrite_script (m : Mem) (f : Byte → Byte → Res8) :
    (readModifyWrite m f s).script = s.script := by simp [readModifyWrite]
@[simp] theorem readModifyWrite_lateClear (m : Mem) (f : Byte → Byte → Res8) :
    (readModifyWrite m f s).lateClear = s.lateClear := by simp [readModifyWrite]
@[simp] theorem readModifyWrite_generation (m : Mem) (f : Byte → Byte → Res8) :
    (readModifyWrite m f s).generation = s.generation := by simp [readModifyWrite]
@[simp] theorem readModifyWrite_cfg (m : Mem) (f : Byte → Byte → Res8) :
    (readModifyWrite m f s).cfg = s.cfg := by simp [readModifyWrite]
@[simp] theorem readModifyWrite_ccr (m : Mem) (f : Byte → Byte → Res8) :
    (readModifyWrite m f s).ccr = (f (peek (effAddr m s) s) s.ccr).ccr := by simp [readModifyWrite]
theorem readModifyWrite_mem (m : Mem) (f : Byte → Byte → Res8) :
    (readModifyWrite m f s).mem = (store (effAddr m s) (f (peek (effAddr m s) s) s.ccr).val s).mem := by
  simp only [readModifyWrite, store, State.kind, touch_cfg, touch_mem]
  split <;> simp
theorem memByte_readModifyWrite (m : Mem) (f : Byte → Byte → Res8) (y : Word) :
    (readModifyWrite m f s).memByte y =
      (store (effAddr m s) (f (peek (effAddr m s) s) s.ccr).val s).memByte y :=
  memByte_congr (readModifyWrite_mem s m f) (by simp) (by simp) y

/-! ## 16-bit register and operand -/

@[simp] theorem regOp_pc (r : Reg16) (f : Word → Word → Byte → Res16) (op : Operand16) :
    (regOp r f op s).pc = s.pc := by simp [regOp]
@[simp] theorem regOp_run (r : Reg16) (f : Word → Word → Byte → Res16) (op : Operand16) :
    (regOp r f op s).run = s.run := by simp [regOp]
@[simp] theorem regOp_lastReset (r : Reg16) (f : Word → Word → Byte → Res16) (op : Operand16) :
    (regOp r f op s).lastReset = s.lastReset := by simp [regOp]
@[simp] theorem regOp_mem (r : Reg16) (f : Word → Word → Byte → Res16) (op : Operand16) :
    (regOp r f op s).mem = s.mem := by simp [regOp]
@[simp] theorem regOp_lines (r : Reg16) (f : Word → Word → Byte → Res16) (op : Operand16) :
    (regOp r f op s).lines = s.lines := by simp [regOp]
@[simp] theorem regOp_script (r : Reg16) (f : Word → Word → Byte → Res16) (op : Operand16) :
    (regOp r f op s).script = s.script := by simp [regOp]
@[simp] theorem regOp_lateClear (r : Reg16) (f : Word → Word → Byte → Res16) (op : Operand16) :
    (regOp r f op s).lateClear = s.lateClear := by simp [regOp]
@[simp] theorem regOp_generation (r : Reg16) (f : Word → Word → Byte → Res16) (op : Operand16) :
    (regOp r f op s).generation = s.generation := by simp [regOp]
@[simp] theorem regOp_cfg (r : Reg16) (f : Word → Word → Byte → Res16) (op : Operand16) :
    (regOp r f op s).cfg = s.cfg := by simp [regOp]
@[simp] theorem regOp_io (r : Reg16) (f : Word → Word → Byte → Res16) (op : Operand16) :
    (regOp r f op s).io = (afterOperand16 op s).io := by simp [regOp]
@[simp] theorem regOp_draws (r : Reg16) (f : Word → Word → Byte → Res16) (op : Operand16) :
    (regOp r f op s).draws = (afterOperand16 op s).draws := by simp [regOp]
@[simp] theorem memByte_regOp (r : Reg16) (f : Word → Word → Byte → Res16) (op : Operand16) (y : Word) :
    (regOp r f op s).memByte y = s.memByte y :=
  memByte_congr (by simp) (by simp) (by simp) y
@[simp] theorem regOp_ccr (r : Reg16) (f : Word → Word → Byte → Res16) (op : Operand16) :
    (regOp r f op s).ccr = (f (s.reg16 r) (operand16 op s) s.ccr).ccr := rfl
theorem regOp_eq (r : Reg16) (f : Word → Word → Byte → Res16) (op : Operand16) :
    regOp r f op s =
      { (afterOperand16 op s).setReg16 r (f (s.reg16 r) (operand16 op s) s.ccr).val with
        ccr := (f (s.reg16 r) (operand16 op s) s.ccr).ccr } := rfl

/-! ## 16-bit compare -/

@[simp] theorem regCompare_a (r : Reg16) (op : Operand16) :
    (regCompare r op s).a = s.a := by simp [regCompare]
@[simp] theorem regCompare_b (r : Reg16) (op : Operand16) :
    (regCompare r op s).b = s.b := by simp [regCompare]
@[simp] theorem regCompare_ix (r : Reg16) (op : Operand16) :
    (regCompare r op s).ix = s.ix := by simp [regCompare]
@[simp] theorem regCompare_iy (r : Reg16) (op : Operand16) :
    (regCompare r op s).iy = s.iy := by simp [regCompare]
@[simp] theorem regCompare_sp (r : Reg16) (op : Operand16) :
    (regCompare r op s).sp = s.sp := by simp [regCompare]
@[simp] theorem regCompare_pc (r : Reg16) (op : Operand16) :
    (regCompare r op s).pc = s.pc := by simp [regCompare]
@[simp] theorem regCompare_run (r : Reg16) (op : Operand16) :
    (regCompare r op s).run = s.run := by simp [regCompare]
@[simp] theorem regCompare_lastReset (r : Reg16) (op : Operand16) :
    (regCompare r op s).lastReset = s.lastReset := by simp [regCompare]
@[simp] theorem regCompare_mem (r : Reg16) (op : Operand16) :
    (regCompare r op s).mem = s.mem := by simp [regCompare]
@[simp] theorem regCompare_lines (r : Reg16) (op : Operand16) :
    (regCompare r op s).lines = s.lines := by simp [regCompare]
@[simp] theorem regCompare_script (r : Reg16) (op : Operand16) :
    (regCompare r op s).script = s.script := by simp [regCompare]
@[simp] theorem regCompare_lateClear (r : Reg16) (op : Operand16) :
    (regCompare r op s).lateClear = s.lateClear := by simp [regCompare]
@[simp] theorem regCompare_generation (r : Reg16) (op : Operand16) :
    (regCompare r op s).generation = s.generation := by simp [regCompare]
@[simp] theorem regCompare_cfg (r : Reg16) (op : Operand16) :
    (regCompare r op s).cfg = s.cfg := by simp [regCompare]
@[simp] theorem regCompare_io (r : Reg16) (op : Operand16) :
    (regCompare r op s).io = (afterOperand16 op s).io := by simp [regCompare]
@[simp] theorem regCompare_draws (r : Reg16) (op : Operand16) :
    (regCompare r op s).draws = (afterOperand16 op s).draws := by simp [regCompare]
@[simp] theorem memByte_regCompare (r : Reg16) (op : Operand16) (y : Word) :
    (regCompare r op s).memByte y = s.memByte y :=
  memByte_congr (by simp) (by simp) (by simp) y
@[simp] theorem regCompare_ccr (r : Reg16) (op : Operand16) :
    (regCompare r op s).ccr = (sub16 (s.reg16 r) (operand16 op s) s.ccr).ccr := rfl

/-! ## Load an accumulator -/

@[simp] theorem accLoad_ix (r : Acc) (op : Operand8) :
    (accLoad r op s).ix = s.ix := by simp [accLoad]
@[simp] theorem accLoad_iy (r : Acc) (op : Operand8) :
    (accLoad r op s).iy = s.iy := by simp [accLoad]
@[simp] theorem accLoad_sp (r : Acc) (op : Operand8) :
    (accLoad r op s).sp = s.sp := by simp [accLoad]
@[simp] theorem accLoad_pc (r : Acc) (op : Operand8) :
    (accLoad r op s).pc = s.pc := by simp [accLoad]
@[simp] theorem accLoad_run (r : Acc) (op : Operand8) :
    (accLoad r op s).run = s.run := by simp [accLoad]
@[simp] theorem accLoad_lastReset (r : Acc) (op : Operand8) :
    (accLoad r op s).lastReset = s.lastReset := by simp [accLoad]
@[simp] theorem accLoad_mem (r : Acc) (op : Operand8) :
    (accLoad r op s).mem = s.mem := by simp [accLoad]
@[simp] theorem accLoad_lines (r : Acc) (op : Operand8) :
    (accLoad r op s).lines = s.lines := by simp [accLoad]
@[simp] theorem accLoad_script (r : Acc) (op : Operand8) :
    (accLoad r op s).script = s.script := by simp [accLoad]
@[simp] theorem accLoad_lateClear (r : Acc) (op : Operand8) :
    (accLoad r op s).lateClear = s.lateClear := by simp [accLoad]
@[simp] theorem accLoad_generation (r : Acc) (op : Operand8) :
    (accLoad r op s).generation = s.generation := by simp [accLoad]
@[simp] theorem accLoad_cfg (r : Acc) (op : Operand8) :
    (accLoad r op s).cfg = s.cfg := by simp [accLoad]
@[simp] theorem accLoad_io (r : Acc) (op : Operand8) :
    (accLoad r op s).io = (afterOperand8 op s).io := by simp [accLoad]
@[simp] theorem accLoad_draws (r : Acc) (op : Operand8) :
    (accLoad r op s).draws = (afterOperand8 op s).draws := by simp [accLoad]
@[simp] theorem memByte_accLoad (r : Acc) (op : Operand8) (y : Word) :
    (accLoad r op s).memByte y = s.memByte y :=
  memByte_congr (by simp) (by simp) (by simp) y
@[simp] theorem accLoad_ccr (r : Acc) (op : Operand8) : (accLoad r op s).ccr = nz8 (operand8 op s) s.ccr := rfl
@[simp] theorem accLoad_acc (r : Acc) (op : Operand8) : (accLoad r op s).acc r = operand8 op s := by cases r <;> rfl
@[simp] theorem accLoad_a_b (op : Operand8) : (accLoad .a op s).b = s.b := by simp [accLoad]
@[simp] theorem accLoad_b_a (op : Operand8) : (accLoad .b op s).a = s.a := by simp [accLoad]

/-! ## Store an accumulator -/

@[simp] theorem accStore_a (r : Acc) (m : Mem) :
    (accStore r m s).a = s.a := by simp [accStore]
@[simp] theorem accStore_b (r : Acc) (m : Mem) :
    (accStore r m s).b = s.b := by simp [accStore]
@[simp] theorem accStore_ix (r : Acc) (m : Mem) :
    (accStore r m s).ix = s.ix := by simp [accStore]
@[simp] theorem accStore_iy (r : Acc) (m : Mem) :
    (accStore r m s).iy = s.iy := by simp [accStore]
@[simp] theorem accStore_sp (r : Acc) (m : Mem) :
    (accStore r m s).sp = s.sp := by simp [accStore]
@[simp] theorem accStore_pc (r : Acc) (m : Mem) :
    (accStore r m s).pc = s.pc := by simp [accStore]
@[simp] theorem accStore_run (r : Acc) (m : Mem) :
    (accStore r m s).run = s.run := by simp [accStore]
@[simp] theorem accStore_lastReset (r : Acc) (m : Mem) :
    (accStore r m s).lastReset = s.lastReset := by simp [accStore]
@[simp] theorem accStore_lines (r : Acc) (m : Mem) :
    (accStore r m s).lines = s.lines := by simp [accStore]
@[simp] theorem accStore_script (r : Acc) (m : Mem) :
    (accStore r m s).script = s.script := by simp [accStore]
@[simp] theorem accStore_lateClear (r : Acc) (m : Mem) :
    (accStore r m s).lateClear = s.lateClear := by simp [accStore]
@[simp] theorem accStore_draws (r : Acc) (m : Mem) :
    (accStore r m s).draws = s.draws := by simp [accStore]
@[simp] theorem accStore_generation (r : Acc) (m : Mem) :
    (accStore r m s).generation = s.generation := by simp [accStore]
@[simp] theorem accStore_cfg (r : Acc) (m : Mem) :
    (accStore r m s).cfg = s.cfg := by simp [accStore]
@[simp] theorem accStore_ccr (r : Acc) (m : Mem) : (accStore r m s).ccr = nz8 (s.acc r) s.ccr := by simp [accStore]
theorem accStore_mem (r : Acc) (m : Mem) : (accStore r m s).mem = (store (effAddr m s) (s.acc r) s).mem := by
  simp only [accStore, store, State.kind]
  split <;> rfl
theorem accStore_io (r : Acc) (m : Mem) : (accStore r m s).io = (store (effAddr m s) (s.acc r) s).io := by
  simp only [accStore, store, State.kind]
  split <;> rfl

/-! ## Load a 16-bit register -/

@[simp] theorem regLoad_pc (r : Reg16) (op : Operand16) :
    (regLoad r op s).pc = s.pc := by simp [regLoad]
@[simp] theorem regLoad_run (r : Reg16) (op : Operand16) :
    (regLoad r op s).run = s.run := by simp [regLoad]
@[simp] theorem regLoad_lastReset (r : Reg16) (op : Operand16) :
    (regLoad r op s).lastReset = s.lastReset := by simp [regLoad]
@[simp] theorem regLoad_mem (r : Reg16) (op : Operand16) :
    (regLoad r op s).mem = s.mem := by simp [regLoad]
@[simp] theorem regLoad_lines (r : Reg16) (op : Operand16) :
    (regLoad r op s).lines = s.lines := by simp [regLoad]
@[simp] theorem regLoad_script (r : Reg16) (op : Operand16) :
    (regLoad r op s).script = s.script := by simp [regLoad]
@[simp] theorem regLoad_lateClear (r : Reg16) (op : Operand16) :
    (regLoad r op s).lateClear = s.lateClear := by simp [regLoad]
@[simp] theorem regLoad_generation (r : Reg16) (op : Operand16) :
    (regLoad r op s).generation = s.generation := by simp [regLoad]
@[simp] theorem regLoad_cfg (r : Reg16) (op : Operand16) :
    (regLoad r op s).cfg = s.cfg := by simp [regLoad]
@[simp] theorem regLoad_io (r : Reg16) (op : Operand16) :
    (regLoad r op s).io = (afterOperand16 op s).io := by simp [regLoad]
@[simp] theorem regLoad_draws (r : Reg16) (op : Operand16) :
    (regLoad r op s).draws = (afterOperand16 op s).draws := by simp [regLoad]
@[simp] theorem memByte_regLoad (r : Reg16) (op : Operand16) (y : Word) :
    (regLoad r op s).memByte y = s.memByte y :=
  memByte_congr (by simp) (by simp) (by simp) y
@[simp] theorem regLoad_ccr (r : Reg16) (op : Operand16) :
    (regLoad r op s).ccr = nz16 (operand16 op s) s.ccr := rfl
theorem regLoad_eq (r : Reg16) (op : Operand16) :
    regLoad r op s =
      { (afterOperand16 op s).setReg16 r (operand16 op s) with ccr := nz16 (operand16 op s) s.ccr } := rfl

/-! ## Store a 16-bit register -/

@[simp] theorem regStore_a (r : Reg16) (m : Mem) :
    (regStore r m s).a = s.a := by simp [regStore]
@[simp] theorem regStore_b (r : Reg16) (m : Mem) :
    (regStore r m s).b = s.b := by simp [regStore]
@[simp] theorem regStore_ix (r : Reg16) (m : Mem) :
    (regStore r m s).ix = s.ix := by simp [regStore]
@[simp] theorem regStore_iy (r : Reg16) (m : Mem) :
    (regStore r m s).iy = s.iy := by simp [regStore]
@[simp] theorem regStore_sp (r : Reg16) (m : Mem) :
    (regStore r m s).sp = s.sp := by simp [regStore]
@[simp] theorem regStore_pc (r : Reg16) (m : Mem) :
    (regStore r m s).pc = s.pc := by simp [regStore]
@[simp] theorem regStore_run (r : Reg16) (m : Mem) :
    (regStore r m s).run = s.run := by simp [regStore]
@[simp] theorem regStore_lastReset (r : Reg16) (m : Mem) :
    (regStore r m s).lastReset = s.lastReset := by simp [regStore]
@[simp] theorem regStore_lines (r : Reg16) (m : Mem) :
    (regStore r m s).lines = s.lines := by simp [regStore]
@[simp] theorem regStore_script (r : Reg16) (m : Mem) :
    (regStore r m s).script = s.script := by simp [regStore]
@[simp] theorem regStore_lateClear (r : Reg16) (m : Mem) :
    (regStore r m s).lateClear = s.lateClear := by simp [regStore]
@[simp] theorem regStore_draws (r : Reg16) (m : Mem) :
    (regStore r m s).draws = s.draws := by simp [regStore]
@[simp] theorem regStore_generation (r : Reg16) (m : Mem) :
    (regStore r m s).generation = s.generation := by simp [regStore]
@[simp] theorem regStore_cfg (r : Reg16) (m : Mem) :
    (regStore r m s).cfg = s.cfg := by simp [regStore]
@[simp] theorem regStore_ccr (r : Reg16) (m : Mem) : (regStore r m s).ccr = nz16 (s.reg16 r) s.ccr := by
  simp [regStore]

/-! ## Call -/

@[simp] theorem callTo_a (target : Word) : (callTo target s).a = s.a := by simp [callTo]
@[simp] theorem callTo_b (target : Word) : (callTo target s).b = s.b := by simp [callTo]
@[simp] theorem callTo_ix (target : Word) : (callTo target s).ix = s.ix := by simp [callTo]
@[simp] theorem callTo_iy (target : Word) : (callTo target s).iy = s.iy := by simp [callTo]
@[simp] theorem callTo_ccr (target : Word) : (callTo target s).ccr = s.ccr := by simp [callTo]
@[simp] theorem callTo_run (target : Word) : (callTo target s).run = s.run := by simp [callTo]
@[simp] theorem callTo_lastReset (target : Word) : (callTo target s).lastReset = s.lastReset := by simp [callTo]
@[simp] theorem callTo_lines (target : Word) : (callTo target s).lines = s.lines := by simp [callTo]
@[simp] theorem callTo_script (target : Word) : (callTo target s).script = s.script := by simp [callTo]
@[simp] theorem callTo_lateClear (target : Word) : (callTo target s).lateClear = s.lateClear := by simp [callTo]
@[simp] theorem callTo_draws (target : Word) : (callTo target s).draws = s.draws := by simp [callTo]
@[simp] theorem callTo_generation (target : Word) : (callTo target s).generation = s.generation := by simp [callTo]
@[simp] theorem callTo_cfg (target : Word) : (callTo target s).cfg = s.cfg := by simp [callTo]
@[simp] theorem callTo_pc (target : Word) : (callTo target s).pc = target := rfl
@[simp] theorem callTo_sp (target : Word) : (callTo target s).sp = s.sp - 1 - 1 := by simp [callTo]

/-! ## Branch -/

@[simp] theorem branchIf_a (taken : Bool) (rr : Byte) : (branchIf taken rr s).a = s.a := by simp [branchIf]
@[simp] theorem branchIf_b (taken : Bool) (rr : Byte) : (branchIf taken rr s).b = s.b := by simp [branchIf]
@[simp] theorem branchIf_ix (taken : Bool) (rr : Byte) : (branchIf taken rr s).ix = s.ix := by simp [branchIf]
@[simp] theorem branchIf_iy (taken : Bool) (rr : Byte) : (branchIf taken rr s).iy = s.iy := by simp [branchIf]
@[simp] theorem branchIf_sp (taken : Bool) (rr : Byte) : (branchIf taken rr s).sp = s.sp := by simp [branchIf]
@[simp] theorem branchIf_ccr (taken : Bool) (rr : Byte) : (branchIf taken rr s).ccr = s.ccr := by simp [branchIf]
@[simp] theorem branchIf_run (taken : Bool) (rr : Byte) : (branchIf taken rr s).run = s.run := by simp [branchIf]
@[simp] theorem branchIf_lastReset (taken : Bool) (rr : Byte) : (branchIf taken rr s).lastReset = s.lastReset := by simp [branchIf]
@[simp] theorem branchIf_mem (taken : Bool) (rr : Byte) : (branchIf taken rr s).mem = s.mem := by simp [branchIf]
@[simp] theorem branchIf_lines (taken : Bool) (rr : Byte) : (branchIf taken rr s).lines = s.lines := by simp [branchIf]
@[simp] theorem branchIf_script (taken : Bool) (rr : Byte) : (branchIf taken rr s).script = s.script := by simp [branchIf]
@[simp] theorem branchIf_lateClear (taken : Bool) (rr : Byte) : (branchIf taken rr s).lateClear = s.lateClear := by simp [branchIf]
@[simp] theorem branchIf_io (taken : Bool) (rr : Byte) : (branchIf taken rr s).io = s.io := by simp [branchIf]
@[simp] theorem branchIf_draws (taken : Bool) (rr : Byte) : (branchIf taken rr s).draws = s.draws := by simp [branchIf]
@[simp] theorem branchIf_generation (taken : Bool) (rr : Byte) : (branchIf taken rr s).generation = s.generation := by simp [branchIf]
@[simp] theorem branchIf_cfg (taken : Bool) (rr : Byte) : (branchIf taken rr s).cfg = s.cfg := by simp [branchIf]
@[simp] theorem branchIf_pc (taken : Bool) (rr : Byte) : (branchIf taken rr s).pc = if taken then branchTarget rr s else s.pc := rfl

/-! ## The canonical form of memory -/

theorem readModifyWrite_wf {s : State} (h : Memory.wf s.mem = true) (m : Mem) (f : Byte → Byte → Res8) :
    Memory.wf (readModifyWrite m f s).mem = true := by
  rw [readModifyWrite_mem]; exact store_wf h _ _

theorem accStore_wf {s : State} (h : Memory.wf s.mem = true) (r : Acc) (m : Mem) :
    Memory.wf (accStore r m s).mem = true := by
  rw [accStore_mem]; exact store_wf h _ _

theorem regStore_wf {s : State} (h : Memory.wf s.mem = true) (r : Reg16) (m : Mem) :
    Memory.wf (regStore r m s).mem = true := by
  unfold regStore
  exact store16_wf (s := { s with ccr := nz16 (s.reg16 r) s.ccr }) h _ _

theorem callTo_wf {s : State} (h : Memory.wf s.mem = true) (target : Word) :
    Memory.wf (callTo target s).mem = true := by
  simpa [callTo] using pushWord_wf h s.pc

end Sys2Proof.Machine
end

