-- ==== Sys2Proof/Laws/Step.lean ====
section
/-!
SUPPORT. The laws of the step: everything a step can do, said once, and what a boundary and a fetch leave alone.
-/

namespace Sys2Proof.Machine

variable {s t : State}

/-! ## The boundary and the fetch -/

@[simp] theorem atBoundary_lateClear : s.atBoundary.lateClear = false := rfl
@[simp] theorem atBoundary_mem : s.atBoundary.mem = s.mem := sample_mem s
@[simp] theorem atBoundary_cfg : s.atBoundary.cfg = s.cfg := sample_cfg s
@[simp] theorem atBoundary_generation : s.atBoundary.generation = s.generation := sample_generation s
@[simp] theorem atBoundary_io : s.atBoundary.io = s.io := sample_io s
@[simp] theorem atBoundary_draws : s.atBoundary.draws = s.draws := sample_draws s
@[simp] theorem atBoundary_run : s.atBoundary.run = s.run := sample_run s
@[simp] theorem atBoundary_pc : s.atBoundary.pc = s.pc := sample_pc s
@[simp] theorem atBoundary_sp : s.atBoundary.sp = s.sp := sample_sp s
@[simp] theorem atBoundary_ccr : s.atBoundary.ccr = s.ccr := sample_ccr s
@[simp] theorem atBoundary_a : s.atBoundary.a = s.a := sample_a s
@[simp] theorem atBoundary_b : s.atBoundary.b = s.b := sample_b s
@[simp] theorem atBoundary_ix : s.atBoundary.ix = s.ix := sample_ix s
@[simp] theorem atBoundary_iy : s.atBoundary.iy = s.iy := sample_iy s
theorem atBoundary_flag (f : Flag) : s.atBoundary.flag f = s.flag f := congrArg (getFlag · f) (sample_ccr s)
theorem atBoundary_memByte (x : Word) : s.atBoundary.memByte x = s.memByte x :=
  memByte_congr (sample_mem s) (sample_generation s) (sample_cfg s) x
theorem atBoundary_kind (x : Word) : s.atBoundary.kind x = s.kind x := kind_eq_of_cfg (sample_cfg s) x

/-- The fetch moves PC to `pc_next` (10_state.md R27). -/
@[simp] theorem fetched_pc : (fetched s).pc = s.pc + BitVec.ofNat 16 (fetchLength s) := rfl
@[simp] theorem fetched_a : (fetched s).a = s.a := touchBytes_a s _ _
@[simp] theorem fetched_b : (fetched s).b = s.b := touchBytes_b s _ _
@[simp] theorem fetched_ix : (fetched s).ix = s.ix := touchBytes_ix s _ _
@[simp] theorem fetched_iy : (fetched s).iy = s.iy := touchBytes_iy s _ _
@[simp] theorem fetched_sp : (fetched s).sp = s.sp := touchBytes_sp s _ _
@[simp] theorem fetched_ccr : (fetched s).ccr = s.ccr := touchBytes_ccr s _ _
@[simp] theorem fetched_run : (fetched s).run = s.run := touchBytes_run s _ _
@[simp] theorem fetched_lastReset : (fetched s).lastReset = s.lastReset := touchBytes_lastReset s _ _
@[simp] theorem fetched_mem : (fetched s).mem = s.mem := touchBytes_mem s _ _
@[simp] theorem fetched_lines : (fetched s).lines = s.lines := touchBytes_lines s _ _
@[simp] theorem fetched_script : (fetched s).script = s.script := touchBytes_script s _ _
@[simp] theorem fetched_lateClear : (fetched s).lateClear = s.lateClear := touchBytes_lateClear s _ _
@[simp] theorem fetched_generation : (fetched s).generation = s.generation := touchBytes_generation s _ _
@[simp] theorem fetched_cfg : (fetched s).cfg = s.cfg := touchBytes_cfg s _ _
theorem fetched_flag (f : Flag) : (fetched s).flag f = s.flag f := congrArg (getFlag · f) (touchBytes_ccr s _ _)
theorem fetched_io : (fetched s).io = (touchBytes (fetchLength s) s.pc s).io := rfl
theorem fetched_draws : (fetched s).draws = (touchBytes (fetchLength s) s.pc s).draws := rfl

/-- Reads of memory give its bytes and change nothing. -/
theorem readBytes_of_inMemory (n : Nat) (x : Word) (s : State) (h : s.inMemory x n = true) :
    readBytes n x s = s.memBytes x n ∧ touchBytes n x s = s := by
  induction n generalizing x s with
  | zero => exact ⟨rfl, rfl⟩
  | succ n ih =>
    simp only [State.inMemory, Bool.and_eq_true] at h
    simp only [readBytes, touchBytes, State.memBytes, peek_of_isMemory h.1, touch_of_isMemory h.1,
      (ih _ _ h.2).1, (ih _ _ h.2).2]
    exact ⟨trivial, trivial⟩

theorem readBytes_length (n : Nat) (x : Word) (s : State) : (readBytes n x s).length = n := by
  induction n generalizing x s with
  | zero => rfl
  | succ n ih => simp [readBytes, ih]

theorem fetchBytes_length (s : State) : (fetchBytes s).length = fetchLength s := readBytes_length _ _ _

/-- The bytes fetched where the first one is a prebyte (30_encoding.md R96). -/
theorem fetchBytes_of_prebyte (h : s.cfg.opcodeMap.isPrebyte (peek s.pc s) = true) :
    let op := peek (s.pc + 1) (touch s.pc s)
    ∃ ops, fetchBytes s = peek s.pc s :: op :: ops ∧ fetchLength s = 2 + ops.length ∧
      ops.length = operandCount s.cfg.opcodeMap (some (peek s.pc s)) op := by
  intro op
  have e : fetchLength s = 2 + operandCount s.cfg.opcodeMap (some (peek s.pc s)) op := by
    simp only [fetchLength, h, if_true, op]
  refine ⟨readBytes _ (s.pc + 1 + 1) (touch (s.pc + 1) (touch s.pc s)), ?_, ?_, readBytes_length _ _ _⟩
  · unfold fetchBytes
    rw [e, Nat.add_comm 2]
    rfl
  · rw [e, readBytes_length]

/-- The bytes fetched where the first one is no prebyte (30_encoding.md R96). -/
theorem fetchBytes_of_page0 (h : s.cfg.opcodeMap.isPrebyte (peek s.pc s) = false) :
    ∃ ops, fetchBytes s = peek s.pc s :: ops ∧ fetchLength s = 1 + ops.length ∧
      ops.length = operandCount s.cfg.opcodeMap none (peek s.pc s) := by
  have e : fetchLength s = 1 + operandCount s.cfg.opcodeMap none (peek s.pc s) := by simp [fetchLength, h]
  refine ⟨readBytes _ (s.pc + 1) (touch s.pc s), ?_, ?_, readBytes_length _ _ _⟩
  · unfold fetchBytes
    rw [e, Nat.add_comm 1]
    rfl
  · rw [e, readBytes_length]

/-! ## Everything a step can do -/

/-- The eight cases of a step. -/
theorem step_cases (h : step s = .next t) :
    (∃ cause, s.event = .reset cause ∧ t = resetSequence cause s.atBoundary) ∨
    (∃ vector setX, s.event = .interrupt vector setX ∧ t = takeInterrupt vector setX s.atBoundary.pc s.atBoundary) ∨
    (∃ vector setX, s.event = .wake vector setX ∧ t = enterVector vector setX s.atBoundary) ∨
    (s.event = .resume ∧ t = resumeRunning s.atBoundary) ∨
    (s.event = .idle ∧ t = s.atBoundary) ∨
    (s.event = .execute ∧
      ((∃ i rest, decode s.cfg.opcodeMap (fetchBytes s.atBoundary) = .ok (i, rest) ∧ exec i (fetched s.atBoundary) = .next t) ∨
        ∃ e, decode s.cfg.opcodeMap (fetchBytes s.atBoundary) = .error e ∧
          t = illegalOpcodeTrap s.pc (fetched s.atBoundary))) := by
  unfold step at h
  split at h
  · next he => exact .inl ⟨_, he, (Host.Outcome.next.inj h).symm⟩
  · next he => exact .inr (.inl ⟨_, _, he, (Host.Outcome.next.inj h).symm⟩)
  · next he => exact .inr (.inr (.inl ⟨_, _, he, (Host.Outcome.next.inj h).symm⟩))
  · next he => exact .inr (.inr (.inr (.inl ⟨he, (Host.Outcome.next.inj h).symm⟩)))
  · next he => exact .inr (.inr (.inr (.inr (.inl ⟨he, (Host.Outcome.next.inj h).symm⟩))))
  · next he =>
    refine .inr (.inr (.inr (.inr (.inr ⟨he, ?_⟩))))
    unfold fetchAndExecute at h
    rw [atBoundary_cfg, atBoundary_pc] at h
    split at h
    · next hd => exact .inl ⟨_, _, hd, h⟩
    · next hd => exact .inr ⟨_, hd, (Host.Outcome.next.inj h).symm⟩

/-- Only a running CPU executes an instruction (60_exceptions.md R352). -/
theorem run_of_event_execute (h : s.event = .execute) : s.run = .running := by
  unfold State.event recognise at h
  rw [sample_run] at h
  cases hr : s.run
  · rfl
  all_goals
    rw [hr] at h
    simp only at h
    split at h
    · cases h
    · split at h
      · cases h
      · split at h
        · cases h
        · split at h <;> cases h

/-- What the illegal-opcode trap is: an entry with the return address `ILLOP_RETURN`. -/
theorem illegalOpcodeTrap_eq (start : Word) (s : State) :
    ∃ ret, illegalOpcodeTrap start s = takeInterrupt illegalVector false ret s := ⟨_, rfl⟩

/-! ## Reset -/

/-- The state in which a reset reads its vector. -/
def resetCleared (cause : ResetCause) (s : State) : State :=
  { (if s.cfg.ramRetained && cause != .powerOn then s else forgetRam s) with
    a := (Config.draw s.draws).setWidth 8
    b := (Config.draw (s.draws + 1)).setWidth 8
    ix := Config.draw (s.draws + 2)
    iy := Config.draw (s.draws + 3)
    sp := Config.draw (s.draws + 4)
    ccr := 0xD0#8 ||| ((Config.draw (s.draws + 5)).setWidth 8 &&& 0x2F#8)
    draws := s.draws + 6
    run := .running
    lastReset := cause
    lateClear := false
    lines := { s.lines with reset := none } }

/-- A reset clears the state and loads PC from the vector. -/
theorem resetSequence_eq (cause : ResetCause) (s : State) :
    resetSequence cause s =
      { touch16 (vec s.cfg.mode (resetVector cause)) (resetCleared cause s) with
        pc := peek16 (vec s.cfg.mode (resetVector cause)) (resetCleared cause s) } := by
  unfold resetSequence resetCleared
  by_cases h : (s.cfg.ramRetained && cause != .powerOn) = true <;> simp [h, forgetRam]

theorem resetCleared_cfg (cause : ResetCause) (s : State) : (resetCleared cause s).cfg = s.cfg := by
  unfold resetCleared; split <;> rfl

/-- RAM that has lost its content reads as free values of the next generation. -/
theorem forgetRam_memByte {s : State} {x : Word} (h : s.kind x = .ram) :
    (forgetRam s).memByte x = Config.unwritten (s.generation + 1) x := by
  have hk : (forgetRam s).kind x = .ram := h
  have hm : memRead (forgetRam s).mem x.toNat = none := memRead_filter_of_false _ _ _ fun v => by simp [h]
  unfold State.memByte
  rw [hk, hm]
  rfl

/-- A byte that is not RAM keeps its value through a reset. -/
theorem resetCleared_memByte (cause : ResetCause) (s : State) (x : Word) (h : s.kind x ≠ .ram) :
    (resetCleared cause s).memByte x = s.memByte x := by
  have hk : (resetCleared cause s).kind x = s.kind x := kind_eq_of_cfg (resetCleared_cfg cause s) x
  have hm : memRead (resetCleared cause s).mem x.toNat = memRead s.mem x.toNat := by
    unfold resetCleared
    split
    · rfl
    · exact memRead_filter _ _ _ fun v => by simp [h]
  unfold State.memByte
  rw [hk]
  simp [hm, h]

/-- A byte of RAM keeps its value through a reset where the launch premise says so, and else is forgotten (D22). -/
theorem resetCleared_memByte_ram (cause : ResetCause) {s : State} {x : Word} (h : s.kind x = .ram) :
    (resetCleared cause s).memByte x =
      if s.cfg.ramRetained = true ∧ cause ≠ .powerOn then s.memByte x else Config.unwritten (s.generation + 1) x := by
  by_cases hr : s.cfg.ramRetained = true ∧ cause ≠ .powerOn
  · have hk : (s.cfg.ramRetained && cause != .powerOn) = true := by simpa using hr
    rw [if_pos hr]
    exact memByte_congr (by simp [resetCleared, hk]) (by simp [resetCleared, hk]) (resetCleared_cfg cause s) x
  · have hk : (s.cfg.ramRetained && cause != .powerOn) = false := by
      cases hb : s.cfg.ramRetained <;> simp_all
    rw [if_neg hr, ← forgetRam_memByte h]
    exact memByte_congr (by simp [resetCleared, hk]) (by simp [resetCleared, hk]) (by rw [resetCleared_cfg]; rfl) x

end Sys2Proof.Machine
end

