-- ==== Sys2Proof/Laws/Frame.lean ====
section
/-!
SUPPORT. How a statement about an instruction is put together (`Runs`, `Frame` of Safety.lean), and the registers set
apart from the rest of the state, which is what makes RTI readable.
-/

namespace Sys2Proof.Machine

/-- An instruction that leaves PC at `pc_next` runs. -/
theorem runs_of_next {i : Instr} {s u : State} {regs : List Reg} {flags : List Flag} {stored : List Word} {acc : State}
    {P : State → Prop} (he : exec i s = .next u) (hP : P u) (hpc : u.pc = s.pc) (hf : Frame regs flags stored s u)
    (hr : SameRun s u) (ha : SameAccesses acc u) : Runs i s regs flags stored acc P :=
  ⟨u, he, hP, hpc, hf, hr, ha⟩

/-- A frame where no byte of memory is stored. -/
theorem frame_of {regs : List Reg} {flags : List Flag} {s u : State} (hm : u.mem = s.mem)
    (hg : u.generation = s.generation) (hc : u.cfg = s.cfg) (h1 : u.lastReset = s.lastReset) (h2 : u.lines = s.lines)
    (h3 : u.script = s.script) (hr : ∀ r, r ∉ regs → u.reg r = s.reg r) (hf : ∀ f, f ∉ flags → u.flag f = s.flag f) :
    Frame regs flags [] s u :=
  ⟨hr, hf, fun x _ => memByte_congr hm hg hc x, h1, h2, h3, hg, hc⟩

/-! ## The registers set apart -/

/-- A state with the seven registers replaced. -/
def withRegisters (s : State) (a b : Byte) (ix iy sp pc : Word) (ccr : Byte) : State :=
  { s with a := a, b := b, ix := ix, iy := iy, sp := sp, pc := pc, ccr := ccr }

variable (s : State) (a b : Byte) (ix iy sp pc : Word) (ccr : Byte)

theorem withRegisters_self : withRegisters s s.a s.b s.ix s.iy s.sp s.pc s.ccr = s := rfl

theorem touch_withRegisters (x : Word) :
    touch x (withRegisters s a b ix iy sp pc ccr) = withRegisters (touch x s) a b ix iy sp pc ccr := by
  have hk : (withRegisters s a b ix iy sp pc ccr).kind x = s.kind x := kind_eq_of_cfg rfl x
  unfold touch
  rw [hk]
  cases s.kind x <;> rfl

theorem peek_withRegisters (x : Word) : peek x (withRegisters s a b ix iy sp pc ccr) = peek x s :=
  peek_congr rfl rfl rfl rfl rfl x

theorem pulled_withRegisters :
    pulled (withRegisters s a b ix iy sp pc ccr) = withRegisters (touch (sp + 1) s) a b ix iy (sp + 1) pc ccr := by
  unfold pulled
  rw [show (withRegisters s a b ix iy sp pc ccr).sp = sp from rfl, touch_withRegisters]; rfl

theorem pullValue_withRegisters : pullValue (withRegisters s a b ix iy sp pc ccr) = peek (sp + 1) s :=
  peek_withRegisters s a b ix iy sp pc ccr (sp + 1)

theorem pulledWord_withRegisters :
    pulledWord (withRegisters s a b ix iy sp pc ccr) =
      withRegisters (touch (sp + 1 + 1) (touch (sp + 1) s)) a b ix iy (sp + 1 + 1) pc ccr := by
  unfold pulledWord
  rw [pulled_withRegisters, pulled_withRegisters]

theorem pullWordValue_withRegisters :
    pullWordValue (withRegisters s a b ix iy sp pc ccr) =
      join (peek (sp + 1) s) (peek (sp + 1 + 1) (touch (sp + 1) s)) := by
  unfold pullWordValue
  rw [pulled_withRegisters, pullValue_withRegisters, pullValue_withRegisters]

theorem withRegisters_set_ccr (v : Byte) :
    ({ withRegisters s a b ix iy sp pc ccr with ccr := v } : State) = withRegisters s a b ix iy sp pc v := rfl
theorem withRegisters_set_a (v : Byte) :
    ({ withRegisters s a b ix iy sp pc ccr with a := v } : State) = withRegisters s v b ix iy sp pc ccr := rfl
theorem withRegisters_set_b (v : Byte) :
    ({ withRegisters s a b ix iy sp pc ccr with b := v } : State) = withRegisters s a v ix iy sp pc ccr := rfl
theorem withRegisters_set_ix (v : Word) :
    ({ withRegisters s a b ix iy sp pc ccr with ix := v } : State) = withRegisters s a b v iy sp pc ccr := rfl
theorem withRegisters_set_iy (v : Word) :
    ({ withRegisters s a b ix iy sp pc ccr with iy := v } : State) = withRegisters s a b ix v sp pc ccr := rfl
theorem withRegisters_set_pc (v : Word) :
    ({ withRegisters s a b ix iy sp pc ccr with pc := v } : State) = withRegisters s a b ix iy sp v ccr := rfl

/-- What RTI does: nine reads above SP in ascending order, and the seven registers from them. -/
theorem returnFromInterrupt_withRegisters :
    ∃ c b' a' xh xl yh yl ph pl, readBytes 9 (sp + 1) s = [c, b', a', xh, xl, yh, yl, ph, pl] ∧
      returnFromInterrupt (withRegisters s a b ix iy sp pc ccr) =
        withRegisters (touchBytes 9 (sp + 1) s) a' b' (join xh xl) (join yh yl) (sp + 9) (join ph pl)
          (loadCcr ccr c) := by
  have hsp : sp + 1 + 1 + 1 + 1 + 1 + 1 + 1 + 1 + 1 = sp + 9 := by simp only [BitVec.add_assoc]; rfl
  simp only [readBytes]
  refine ⟨_, _, _, _, _, _, _, _, _, rfl, ?_⟩
  unfold returnFromInterrupt
  simp only [show (withRegisters s a b ix iy sp pc ccr).ccr = ccr from rfl, pulled_withRegisters,
    pullValue_withRegisters, withRegisters_set_ccr, withRegisters_set_a, withRegisters_set_b, withRegisters_set_ix,
    withRegisters_set_iy, withRegisters_set_pc, pulledWord_withRegisters, pullWordValue_withRegisters]
  simp only [touchBytes]
  rw [hsp]

end Sys2Proof.Machine
end

