-- ==== Sys2Proof/Laws/PerInstr.lean ====
section
/-!
SUPPORT. A statement about every instruction as syntax, proved constructor by constructor: an instruction has bytes
exactly when the spec gives it an encoding (30_encoding.md R107).
-/

namespace Sys2Proof.Laws.HasBytes

/-- No bytes is what the encoder answers for an instruction that is not well formed, and for no other. -/
def Statement (i : Instr) : Prop := encode i = [] ↔ i.wf = false

theorem of_cons {i : Instr} {b : Byte} {l : List Byte} (h : encode i = b :: l) (hw : i.wf = true) : Statement i := by
  simp [Statement, h, hw]

theorem of_nil {i : Instr} (h : encode i = []) (hw : i.wf = false) : Statement i := by simp [Statement, h, hw]

theorem aba : Statement .aba := of_cons rfl rfl
theorem adca (op : Operand8) : Statement (.adca op) := match op with
  | .imm _ => of_cons rfl rfl
  | .mem (.dir _) => of_cons rfl rfl
  | .mem (.ext _) => of_cons rfl rfl
  | .mem (.indx _) => of_cons rfl rfl
  | .mem (.indy _) => of_cons rfl rfl
theorem adcb (op : Operand8) : Statement (.adcb op) := match op with
  | .imm _ => of_cons rfl rfl
  | .mem (.dir _) => of_cons rfl rfl
  | .mem (.ext _) => of_cons rfl rfl
  | .mem (.indx _) => of_cons rfl rfl
  | .mem (.indy _) => of_cons rfl rfl
theorem adda (op : Operand8) : Statement (.adda op) := match op with
  | .imm _ => of_cons rfl rfl
  | .mem (.dir _) => of_cons rfl rfl
  | .mem (.ext _) => of_cons rfl rfl
  | .mem (.indx _) => of_cons rfl rfl
  | .mem (.indy _) => of_cons rfl rfl
theorem addb (op : Operand8) : Statement (.addb op) := match op with
  | .imm _ => of_cons rfl rfl
  | .mem (.dir _) => of_cons rfl rfl
  | .mem (.ext _) => of_cons rfl rfl
  | .mem (.indx _) => of_cons rfl rfl
  | .mem (.indy _) => of_cons rfl rfl
theorem addd (op : Operand16) : Statement (.addd op) := match op with
  | .imm _ => of_cons rfl rfl
  | .mem (.dir _) => of_cons rfl rfl
  | .mem (.ext _) => of_cons rfl rfl
  | .mem (.indx _) => of_cons rfl rfl
  | .mem (.indy _) => of_cons rfl rfl
theorem cba : Statement .cba := of_cons rfl rfl
theorem cmpa (op : Operand8) : Statement (.cmpa op) := match op with
  | .imm _ => of_cons rfl rfl
  | .mem (.dir _) => of_cons rfl rfl
  | .mem (.ext _) => of_cons rfl rfl
  | .mem (.indx _) => of_cons rfl rfl
  | .mem (.indy _) => of_cons rfl rfl
theorem cmpb (op : Operand8) : Statement (.cmpb op) := match op with
  | .imm _ => of_cons rfl rfl
  | .mem (.dir _) => of_cons rfl rfl
  | .mem (.ext _) => of_cons rfl rfl
  | .mem (.indx _) => of_cons rfl rfl
  | .mem (.indy _) => of_cons rfl rfl
theorem cpd (op : Operand16) : Statement (.cpd op) := match op with
  | .imm _ => of_cons rfl rfl
  | .mem (.dir _) => of_cons rfl rfl
  | .mem (.ext _) => of_cons rfl rfl
  | .mem (.indx _) => of_cons rfl rfl
  | .mem (.indy _) => of_cons rfl rfl
theorem daa : Statement .daa := of_cons rfl rfl
theorem dec (m : Mem) : Statement (.dec m) := match m with
  | .dir _ => of_nil rfl rfl
  | .ext _ => of_cons rfl rfl
  | .indx _ => of_cons rfl rfl
  | .indy _ => of_cons rfl rfl
theorem deca : Statement .deca := of_cons rfl rfl
theorem decb : Statement .decb := of_cons rfl rfl
theorem fdiv : Statement .fdiv := of_cons rfl rfl
theorem idiv : Statement .idiv := of_cons rfl rfl
theorem inc (m : Mem) : Statement (.inc m) := match m with
  | .dir _ => of_nil rfl rfl
  | .ext _ => of_cons rfl rfl
  | .indx _ => of_cons rfl rfl
  | .indy _ => of_cons rfl rfl
theorem inca : Statement .inca := of_cons rfl rfl
theorem incb : Statement .incb := of_cons rfl rfl
theorem mul : Statement .mul := of_cons rfl rfl
theorem neg (m : Mem) : Statement (.neg m) := match m with
  | .dir _ => of_nil rfl rfl
  | .ext _ => of_cons rfl rfl
  | .indx _ => of_cons rfl rfl
  | .indy _ => of_cons rfl rfl
theorem nega : Statement .nega := of_cons rfl rfl
theorem negb : Statement .negb := of_cons rfl rfl
theorem sba : Statement .sba := of_cons rfl rfl
theorem sbca (op : Operand8) : Statement (.sbca op) := match op with
  | .imm _ => of_cons rfl rfl
  | .mem (.dir _) => of_cons rfl rfl
  | .mem (.ext _) => of_cons rfl rfl
  | .mem (.indx _) => of_cons rfl rfl
  | .mem (.indy _) => of_cons rfl rfl
theorem sbcb (op : Operand8) : Statement (.sbcb op) := match op with
  | .imm _ => of_cons rfl rfl
  | .mem (.dir _) => of_cons rfl rfl
  | .mem (.ext _) => of_cons rfl rfl
  | .mem (.indx _) => of_cons rfl rfl
  | .mem (.indy _) => of_cons rfl rfl
theorem suba (op : Operand8) : Statement (.suba op) := match op with
  | .imm _ => of_cons rfl rfl
  | .mem (.dir _) => of_cons rfl rfl
  | .mem (.ext _) => of_cons rfl rfl
  | .mem (.indx _) => of_cons rfl rfl
  | .mem (.indy _) => of_cons rfl rfl
theorem subb (op : Operand8) : Statement (.subb op) := match op with
  | .imm _ => of_cons rfl rfl
  | .mem (.dir _) => of_cons rfl rfl
  | .mem (.ext _) => of_cons rfl rfl
  | .mem (.indx _) => of_cons rfl rfl
  | .mem (.indy _) => of_cons rfl rfl
theorem subd (op : Operand16) : Statement (.subd op) := match op with
  | .imm _ => of_cons rfl rfl
  | .mem (.dir _) => of_cons rfl rfl
  | .mem (.ext _) => of_cons rfl rfl
  | .mem (.indx _) => of_cons rfl rfl
  | .mem (.indy _) => of_cons rfl rfl
theorem tst (m : Mem) : Statement (.tst m) := match m with
  | .dir _ => of_nil rfl rfl
  | .ext _ => of_cons rfl rfl
  | .indx _ => of_cons rfl rfl
  | .indy _ => of_cons rfl rfl
theorem tsta : Statement .tsta := of_cons rfl rfl
theorem tstb : Statement .tstb := of_cons rfl rfl
theorem anda (op : Operand8) : Statement (.anda op) := match op with
  | .imm _ => of_cons rfl rfl
  | .mem (.dir _) => of_cons rfl rfl
  | .mem (.ext _) => of_cons rfl rfl
  | .mem (.indx _) => of_cons rfl rfl
  | .mem (.indy _) => of_cons rfl rfl
theorem andb (op : Operand8) : Statement (.andb op) := match op with
  | .imm _ => of_cons rfl rfl
  | .mem (.dir _) => of_cons rfl rfl
  | .mem (.ext _) => of_cons rfl rfl
  | .mem (.indx _) => of_cons rfl rfl
  | .mem (.indy _) => of_cons rfl rfl
theorem asr (m : Mem) : Statement (.asr m) := match m with
  | .dir _ => of_nil rfl rfl
  | .ext _ => of_cons rfl rfl
  | .indx _ => of_cons rfl rfl
  | .indy _ => of_cons rfl rfl
theorem asra : Statement .asra := of_cons rfl rfl
theorem asrb : Statement .asrb := of_cons rfl rfl
theorem bclr (m : Mem) (mm : Byte) : Statement (.bclr m mm) := match m with
  | .dir _ => of_cons rfl rfl
  | .ext _ => of_nil rfl rfl
  | .indx _ => of_cons rfl rfl
  | .indy _ => of_cons rfl rfl
theorem bita (op : Operand8) : Statement (.bita op) := match op with
  | .imm _ => of_cons rfl rfl
  | .mem (.dir _) => of_cons rfl rfl
  | .mem (.ext _) => of_cons rfl rfl
  | .mem (.indx _) => of_cons rfl rfl
  | .mem (.indy _) => of_cons rfl rfl
theorem bitb (op : Operand8) : Statement (.bitb op) := match op with
  | .imm _ => of_cons rfl rfl
  | .mem (.dir _) => of_cons rfl rfl
  | .mem (.ext _) => of_cons rfl rfl
  | .mem (.indx _) => of_cons rfl rfl
  | .mem (.indy _) => of_cons rfl rfl
theorem bset (m : Mem) (mm : Byte) : Statement (.bset m mm) := match m with
  | .dir _ => of_cons rfl rfl
  | .ext _ => of_nil rfl rfl
  | .indx _ => of_cons rfl rfl
  | .indy _ => of_cons rfl rfl
theorem com (m : Mem) : Statement (.com m) := match m with
  | .dir _ => of_nil rfl rfl
  | .ext _ => of_cons rfl rfl
  | .indx _ => of_cons rfl rfl
  | .indy _ => of_cons rfl rfl
theorem coma : Statement .coma := of_cons rfl rfl
theorem comb : Statement .comb := of_cons rfl rfl
theorem eora (op : Operand8) : Statement (.eora op) := match op with
  | .imm _ => of_cons rfl rfl
  | .mem (.dir _) => of_cons rfl rfl
  | .mem (.ext _) => of_cons rfl rfl
  | .mem (.indx _) => of_cons rfl rfl
  | .mem (.indy _) => of_cons rfl rfl
theorem eorb (op : Operand8) : Statement (.eorb op) := match op with
  | .imm _ => of_cons rfl rfl
  | .mem (.dir _) => of_cons rfl rfl
  | .mem (.ext _) => of_cons rfl rfl
  | .mem (.indx _) => of_cons rfl rfl
  | .mem (.indy _) => of_cons rfl rfl
theorem lsl (m : Mem) : Statement (.lsl m) := match m with
  | .dir _ => of_nil rfl rfl
  | .ext _ => of_cons rfl rfl
  | .indx _ => of_cons rfl rfl
  | .indy _ => of_cons rfl rfl
theorem lsla : Statement .lsla := of_cons rfl rfl
theorem lslb : Statement .lslb := of_cons rfl rfl
theorem lsld : Statement .lsld := of_cons rfl rfl
theorem lsr (m : Mem) : Statement (.lsr m) := match m with
  | .dir _ => of_nil rfl rfl
  | .ext _ => of_cons rfl rfl
  | .indx _ => of_cons rfl rfl
  | .indy _ => of_cons rfl rfl
theorem lsra : Statement .lsra := of_cons rfl rfl
theorem lsrb : Statement .lsrb := of_cons rfl rfl
theorem lsrd : Statement .lsrd := of_cons rfl rfl
theorem oraa (op : Operand8) : Statement (.oraa op) := match op with
  | .imm _ => of_cons rfl rfl
  | .mem (.dir _) => of_cons rfl rfl
  | .mem (.ext _) => of_cons rfl rfl
  | .mem (.indx _) => of_cons rfl rfl
  | .mem (.indy _) => of_cons rfl rfl
theorem orab (op : Operand8) : Statement (.orab op) := match op with
  | .imm _ => of_cons rfl rfl
  | .mem (.dir _) => of_cons rfl rfl
  | .mem (.ext _) => of_cons rfl rfl
  | .mem (.indx _) => of_cons rfl rfl
  | .mem (.indy _) => of_cons rfl rfl
theorem rol (m : Mem) : Statement (.rol m) := match m with
  | .dir _ => of_nil rfl rfl
  | .ext _ => of_cons rfl rfl
  | .indx _ => of_cons rfl rfl
  | .indy _ => of_cons rfl rfl
theorem rola : Statement .rola := of_cons rfl rfl
theorem rolb : Statement .rolb := of_cons rfl rfl
theorem ror (m : Mem) : Statement (.ror m) := match m with
  | .dir _ => of_nil rfl rfl
  | .ext _ => of_cons rfl rfl
  | .indx _ => of_cons rfl rfl
  | .indy _ => of_cons rfl rfl
theorem rora : Statement .rora := of_cons rfl rfl
theorem rorb : Statement .rorb := of_cons rfl rfl
theorem abx : Statement .abx := of_cons rfl rfl
theorem aby : Statement .aby := of_cons rfl rfl
theorem cpx (op : Operand16) : Statement (.cpx op) := match op with
  | .imm _ => of_cons rfl rfl
  | .mem (.dir _) => of_cons rfl rfl
  | .mem (.ext _) => of_cons rfl rfl
  | .mem (.indx _) => of_cons rfl rfl
  | .mem (.indy _) => of_cons rfl rfl
theorem cpy (op : Operand16) : Statement (.cpy op) := match op with
  | .imm _ => of_cons rfl rfl
  | .mem (.dir _) => of_cons rfl rfl
  | .mem (.ext _) => of_cons rfl rfl
  | .mem (.indx _) => of_cons rfl rfl
  | .mem (.indy _) => of_cons rfl rfl
theorem des : Statement .des := of_cons rfl rfl
theorem dex : Statement .dex := of_cons rfl rfl
theorem dey : Statement .dey := of_cons rfl rfl
theorem ins : Statement .ins := of_cons rfl rfl
theorem inx : Statement .inx := of_cons rfl rfl
theorem iny : Statement .iny := of_cons rfl rfl
theorem lds (op : Operand16) : Statement (.lds op) := match op with
  | .imm _ => of_cons rfl rfl
  | .mem (.dir _) => of_cons rfl rfl
  | .mem (.ext _) => of_cons rfl rfl
  | .mem (.indx _) => of_cons rfl rfl
  | .mem (.indy _) => of_cons rfl rfl
theorem ldx (op : Operand16) : Statement (.ldx op) := match op with
  | .imm _ => of_cons rfl rfl
  | .mem (.dir _) => of_cons rfl rfl
  | .mem (.ext _) => of_cons rfl rfl
  | .mem (.indx _) => of_cons rfl rfl
  | .mem (.indy _) => of_cons rfl rfl
theorem ldy (op : Operand16) : Statement (.ldy op) := match op with
  | .imm _ => of_cons rfl rfl
  | .mem (.dir _) => of_cons rfl rfl
  | .mem (.ext _) => of_cons rfl rfl
  | .mem (.indx _) => of_cons rfl rfl
  | .mem (.indy _) => of_cons rfl rfl
theorem pshx : Statement .pshx := of_cons rfl rfl
theorem pshy : Statement .pshy := of_cons rfl rfl
theorem pulx : Statement .pulx := of_cons rfl rfl
theorem puly : Statement .puly := of_cons rfl rfl
theorem sts (m : Mem) : Statement (.sts m) := match m with
  | .dir _ => of_cons rfl rfl
  | .ext _ => of_cons rfl rfl
  | .indx _ => of_cons rfl rfl
  | .indy _ => of_cons rfl rfl
theorem stx (m : Mem) : Statement (.stx m) := match m with
  | .dir _ => of_cons rfl rfl
  | .ext _ => of_cons rfl rfl
  | .indx _ => of_cons rfl rfl
  | .indy _ => of_cons rfl rfl
theorem sty (m : Mem) : Statement (.sty m) := match m with
  | .dir _ => of_cons rfl rfl
  | .ext _ => of_cons rfl rfl
  | .indx _ => of_cons rfl rfl
  | .indy _ => of_cons rfl rfl
theorem tsx : Statement .tsx := of_cons rfl rfl
theorem tsy : Statement .tsy := of_cons rfl rfl
theorem txs : Statement .txs := of_cons rfl rfl
theorem tys : Statement .tys := of_cons rfl rfl
theorem xgdx : Statement .xgdx := of_cons rfl rfl
theorem xgdy : Statement .xgdy := of_cons rfl rfl
theorem clr (m : Mem) : Statement (.clr m) := match m with
  | .dir _ => of_nil rfl rfl
  | .ext _ => of_cons rfl rfl
  | .indx _ => of_cons rfl rfl
  | .indy _ => of_cons rfl rfl
theorem clra : Statement .clra := of_cons rfl rfl
theorem clrb : Statement .clrb := of_cons rfl rfl
theorem ldaa (op : Operand8) : Statement (.ldaa op) := match op with
  | .imm _ => of_cons rfl rfl
  | .mem (.dir _) => of_cons rfl rfl
  | .mem (.ext _) => of_cons rfl rfl
  | .mem (.indx _) => of_cons rfl rfl
  | .mem (.indy _) => of_cons rfl rfl
theorem ldab (op : Operand8) : Statement (.ldab op) := match op with
  | .imm _ => of_cons rfl rfl
  | .mem (.dir _) => of_cons rfl rfl
  | .mem (.ext _) => of_cons rfl rfl
  | .mem (.indx _) => of_cons rfl rfl
  | .mem (.indy _) => of_cons rfl rfl
theorem ldd (op : Operand16) : Statement (.ldd op) := match op with
  | .imm _ => of_cons rfl rfl
  | .mem (.dir _) => of_cons rfl rfl
  | .mem (.ext _) => of_cons rfl rfl
  | .mem (.indx _) => of_cons rfl rfl
  | .mem (.indy _) => of_cons rfl rfl
theorem psha : Statement .psha := of_cons rfl rfl
theorem pshb : Statement .pshb := of_cons rfl rfl
theorem pula : Statement .pula := of_cons rfl rfl
theorem pulb : Statement .pulb := of_cons rfl rfl
theorem staa (m : Mem) : Statement (.staa m) := match m with
  | .dir _ => of_cons rfl rfl
  | .ext _ => of_cons rfl rfl
  | .indx _ => of_cons rfl rfl
  | .indy _ => of_cons rfl rfl
theorem stab (m : Mem) : Statement (.stab m) := match m with
  | .dir _ => of_cons rfl rfl
  | .ext _ => of_cons rfl rfl
  | .indx _ => of_cons rfl rfl
  | .indy _ => of_cons rfl rfl
theorem std (m : Mem) : Statement (.std m) := match m with
  | .dir _ => of_cons rfl rfl
  | .ext _ => of_cons rfl rfl
  | .indx _ => of_cons rfl rfl
  | .indy _ => of_cons rfl rfl
theorem tab : Statement .tab := of_cons rfl rfl
theorem tba : Statement .tba := of_cons rfl rfl
theorem bra (rr : Byte) : Statement (.bra rr) := of_cons rfl rfl
theorem brn (rr : Byte) : Statement (.brn rr) := of_cons rfl rfl
theorem bhi (rr : Byte) : Statement (.bhi rr) := of_cons rfl rfl
theorem bls (rr : Byte) : Statement (.bls rr) := of_cons rfl rfl
theorem bcc (rr : Byte) : Statement (.bcc rr) := of_cons rfl rfl
theorem bcs (rr : Byte) : Statement (.bcs rr) := of_cons rfl rfl
theorem bne (rr : Byte) : Statement (.bne rr) := of_cons rfl rfl
theorem beq (rr : Byte) : Statement (.beq rr) := of_cons rfl rfl
theorem bvc (rr : Byte) : Statement (.bvc rr) := of_cons rfl rfl
theorem bvs (rr : Byte) : Statement (.bvs rr) := of_cons rfl rfl
theorem bpl (rr : Byte) : Statement (.bpl rr) := of_cons rfl rfl
theorem bmi (rr : Byte) : Statement (.bmi rr) := of_cons rfl rfl
theorem bge (rr : Byte) : Statement (.bge rr) := of_cons rfl rfl
theorem blt (rr : Byte) : Statement (.blt rr) := of_cons rfl rfl
theorem bgt (rr : Byte) : Statement (.bgt rr) := of_cons rfl rfl
theorem ble (rr : Byte) : Statement (.ble rr) := of_cons rfl rfl
theorem brclr (m : Mem) (mm : Byte) (rr : Byte) : Statement (.brclr m mm rr) := match m with
  | .dir _ => of_cons rfl rfl
  | .ext _ => of_nil rfl rfl
  | .indx _ => of_cons rfl rfl
  | .indy _ => of_cons rfl rfl
theorem brset (m : Mem) (mm : Byte) (rr : Byte) : Statement (.brset m mm rr) := match m with
  | .dir _ => of_cons rfl rfl
  | .ext _ => of_nil rfl rfl
  | .indx _ => of_cons rfl rfl
  | .indy _ => of_cons rfl rfl
theorem bsr (rr : Byte) : Statement (.bsr rr) := of_cons rfl rfl
theorem jmp (m : Mem) : Statement (.jmp m) := match m with
  | .dir _ => of_nil rfl rfl
  | .ext _ => of_cons rfl rfl
  | .indx _ => of_cons rfl rfl
  | .indy _ => of_cons rfl rfl
theorem jsr (m : Mem) : Statement (.jsr m) := match m with
  | .dir _ => of_cons rfl rfl
  | .ext _ => of_cons rfl rfl
  | .indx _ => of_cons rfl rfl
  | .indy _ => of_cons rfl rfl
theorem nop : Statement .nop := of_cons rfl rfl
theorem rti : Statement .rti := of_cons rfl rfl
theorem rts : Statement .rts := of_cons rfl rfl
theorem stop : Statement .stop := of_cons rfl rfl
theorem swi : Statement .swi := of_cons rfl rfl
theorem wai : Statement .wai := of_cons rfl rfl
theorem clc : Statement .clc := of_cons rfl rfl
theorem cli : Statement .cli := of_cons rfl rfl
theorem clv : Statement .clv := of_cons rfl rfl
theorem sec : Statement .sec := of_cons rfl rfl
theorem sei : Statement .sei := of_cons rfl rfl
theorem sev : Statement .sev := of_cons rfl rfl
theorem tap : Statement .tap := of_cons rfl rfl
theorem tpa : Statement .tpa := of_cons rfl rfl

end Sys2Proof.Laws.HasBytes
end

