-- ==== Sys2Proof/Machine/Devices.lean ====
section
/-!
DEFINITION. The on-chip I/O registers as the spec lists them (10_state.md R40 to R43, 60_exceptions.md R342): names,
offsets and bit names. Their behaviour is the environment's (20_memory.md R66); nothing here changes what a step does.
-/

namespace Sys2Proof.Machine

/-- One register of the list: its offset from REG_BASE, its name, and the names of its bits 7 to 0 where the spec
gives them. A "0" is the sheet's own entry. -/
structure IoRegister where
  offset : Nat
  name : String
  bits : List String
deriving DecidableEq, Repr

/-- 10_state.md R41, offsets 0x00 to 0x1F. -/
def ioRegistersLow : List IoRegister := [
  ⟨0x00, "PORTA", ["PAI", "OC2", "OC3", "OC4", "OC5", "IC1", "IC2", "IC3"]⟩,
  ⟨0x02, "PIOC", ["STAF", "STAI", "CWOM", "HNDS", "OIN", "PLS", "EGA", "INVB"]⟩,
  ⟨0x03, "PORTC", ["AD7", "AD6", "AD5", "AD4", "AD3", "AD2", "AD1", "AD0"]⟩,
  ⟨0x04, "PORTB", ["A15", "A14", "A13", "A12", "A11", "A10", "A9", "A8"]⟩,
  ⟨0x05, "PORTCL", []⟩,
  ⟨0x07, "DDRC", []⟩,
  ⟨0x08, "PORTD", ["0", "0", "SS", "SCK", "MOSI", "MISO", "TxD", "RxD"]⟩,
  ⟨0x09, "DDRD", []⟩,
  ⟨0x0A, "PORTE", ["AN7", "AN6", "AN5", "AN4", "AN3", "AN2", "AN1", "AN0"]⟩,
  ⟨0x0B, "CFORC", ["FOC1", "FOC2", "FOC3", "FOC4", "FOC5", "0", "0", "0"]⟩,
  ⟨0x0C, "OC1M", ["OC1M7", "OC1M6", "OC1M5", "OC1M4", "OC1M3", "0", "0", "0"]⟩,
  ⟨0x0D, "OC1D", ["OC1D7", "OC1D6", "OC1D5", "OC1D4", "OC1D3", "0", "0", "0"]⟩,
  ⟨0x0E, "TCNTH", []⟩,
  ⟨0x0F, "TCNTL", []⟩,
  ⟨0x10, "TIC1H", []⟩,
  ⟨0x11, "TIC1L", []⟩,
  ⟨0x12, "TIC2H", []⟩,
  ⟨0x13, "TIC2L", []⟩,
  ⟨0x14, "TIC3H", []⟩,
  ⟨0x15, "TIC3L", []⟩,
  ⟨0x16, "TOC1H", []⟩,
  ⟨0x17, "TOC1L", []⟩,
  ⟨0x18, "TOC2H", []⟩,
  ⟨0x19, "TOC2L", []⟩,
  ⟨0x1A, "TOC3H", []⟩,
  ⟨0x1B, "TOC3L", []⟩,
  ⟨0x1C, "TOC4H", []⟩,
  ⟨0x1D, "TOC4L", []⟩,
  ⟨0x1E, "TIC4H/TOC5H", []⟩,
  ⟨0x1F, "TIC4L/TOC5L", []⟩]

/-- 10_state.md R41, offsets 0x20 to 0x3F. The PACTL row is corrected as C1 of 90_conflicts.md resolves it (log 31). -/
def ioRegistersHigh : List IoRegister := [
  ⟨0x20, "TCTL1", ["OM2", "OL2", "OM3", "OL3", "OM4", "OL4", "OM5", "OL5"]⟩,
  ⟨0x21, "TCTL2", ["EDG4B", "EDG4A", "EDG1B", "EDG1A", "EDG2B", "EDG2A", "EDG3B", "EDG3A"]⟩,
  ⟨0x22, "TMSK1", ["OC1I", "OC2I", "OC3I", "OC4I", "IC4I/OC5I", "IC1I", "IC2I", "IC3I"]⟩,
  ⟨0x23, "TFLG1", ["OC1F", "OC2F", "OC3F", "OC4F", "IC4F/OC5F", "IC1F", "IC2F", "IC3F"]⟩,
  ⟨0x24, "TMSK2", ["TOI", "RTII", "PAOVI", "PAII", "0", "0", "PR1", "PR0"]⟩,
  ⟨0x25, "TFLG2", ["TOF", "RTIF", "PAOVF", "PAIF", "0", "0", "0", "0"]⟩,
  ⟨0x26, "PACTL", ["DDRA7", "PAEN", "PAMOD", "PEDGE", "DDRA3", "I4/O5", "RTR1", "RTR0"]⟩,
  ⟨0x27, "PACNT", []⟩,
  ⟨0x28, "SPCR", ["SPIE", "SPE", "DWOM", "MSTR", "CPOL", "CPHA", "SPR1", "SPR0"]⟩,
  ⟨0x29, "SPSR", ["SPIF", "WCOL", "0", "MODF", "0", "0", "0", "0"]⟩,
  ⟨0x2A, "SPDR", []⟩,
  ⟨0x2B, "BAUD", ["TCLR", "SCP2", "SCP1", "SCP0", "RCKB", "SCR2", "SCR1", "SCR0"]⟩,
  ⟨0x2C, "SCCR1", ["R8", "T8", "0", "M", "WAKE", "0", "0", "0"]⟩,
  ⟨0x2D, "SCCR2", ["TIE", "TCIE", "RIE", "ILIE", "TE", "RE", "RWU", "SBK"]⟩,
  ⟨0x2E, "SCSR", ["TDRE", "TC", "RDRF", "IDLE", "OR", "NF", "FE", "0"]⟩,
  ⟨0x2F, "SCDR", []⟩,
  ⟨0x30, "ADCTL", ["CCF", "0", "SCAN", "MULT", "CD", "CC", "CB", "CA"]⟩,
  ⟨0x31, "ADR1", []⟩,
  ⟨0x32, "ADR2", []⟩,
  ⟨0x33, "ADR3", []⟩,
  ⟨0x34, "ADR4", []⟩,
  ⟨0x35, "BPROT", ["0", "0", "0", "PTCON", "BPRT3", "BPRT2", "BPRT1", "BPRT0"]⟩,
  ⟨0x36, "EPROG", ["MBE", "0", "ELAT", "EXCOL", "OXROW", "T1", "T0", "PGM"]⟩,
  ⟨0x39, "OPTION", ["ADPU", "CSEL", "IRQE", "DLY", "CME", "0", "CR1", "CR0"]⟩,
  ⟨0x3A, "COPRST", []⟩,
  ⟨0x3B, "PPROG", ["ODD", "EVEN", "ELAT", "BYTE", "ROW", "ERASE", "EELAT", "EEPGM"]⟩,
  ⟨0x3C, "HPRIO", ["RBOOT", "SMOD", "MDA", "IRV", "PSEL3", "PSEL2", "PSEL1", "PSEL0"]⟩,
  ⟨0x3D, "INIT", ["RAM3", "RAM2", "RAM1", "RAM0", "REG3", "REG2", "REG1", "REG0"]⟩,
  ⟨0x3F, "CONFIG", ["EE3", "EE2", "EE1", "EE0", "NOSEC", "NOCOP", "ROMON", "EEON"]⟩]

/-- The register list (10_state.md R41). Offsets 0x01, 0x06, 0x37, 0x38 and 0x3E are not listed (R42). -/
def ioRegisters : List IoRegister := ioRegistersLow ++ ioRegistersHigh

/-- The offset of an address in the I/O block, if it is in it (10_state.md R40). -/
def ioOffset (cfg : Config) (a : Word) : Option Nat :=
  let k := (a - cfg.regBase).toNat
  if k < 64 then some k else none

/-- The register the spec lists at an address, if it lists one (10_state.md R41, R42). -/
def ioRegisterAt (cfg : Config) (a : Word) : Option IoRegister :=
  match ioOffset cfg a with
  | none => none
  | some k => ioRegisters.find? fun r => r.offset == k

/-- The byte last written to an I/O address, if any has been; a read need not return it (20_memory.md R66). -/
def lastWritten : List IoAccess → Word → Option Byte
  | [], _ => none
  | .write a v :: rest, b => if a = b then some v else lastWritten rest b
  | .read _ :: rest, b => lastWritten rest b

/-- The A/D channels (10_state.md R43): the input that ADCTL bits CD:CC:CB:CA select and the result register the sheet
pairs with it. The values 1000 to 1011 and 1111 are not in the sheet. -/
def adChannel (select : BitVec 4) : Option (String × String) :=
  match select.toNat with
  | 0 => some ("PE0", "ADR1")
  | 1 => some ("PE1", "ADR2")
  | 2 => some ("PE2", "ADR3")
  | 3 => some ("PE3", "ADR4")
  | 4 => some ("PE4", "ADR1")
  | 5 => some ("PE5", "ADR2")
  | 6 => some ("PE6", "ADR3")
  | 7 => some ("PE7", "ADR4")
  | 12 => some ("V_H", "ADR1")
  | 13 => some ("V_L", "ADR2")
  | 14 => some ("1/2 V_H", "ADR3")
  | _ => none

/-- The flag bits and local enable bits that 60_exceptions.md R342 pairs with a source, each with its register. The
pairing is the spec's from general knowledge; the environment, not the model, computes the requests. R342 has no row
for the external IRQ. -/
def irqFlagsAndEnables : IrqSource → List String × List String
  | .irq => ([], [])
  | .realTime => (["RTIF (TFLG2)"], ["RTII (TMSK2)"])
  | .inputCapture1 => (["IC1F (TFLG1)"], ["IC1I (TMSK1)"])
  | .inputCapture2 => (["IC2F (TFLG1)"], ["IC2I (TMSK1)"])
  | .inputCapture3 => (["IC3F (TFLG1)"], ["IC3I (TMSK1)"])
  | .outputCapture1 => (["OC1F (TFLG1)"], ["OC1I (TMSK1)"])
  | .outputCapture2 => (["OC2F (TFLG1)"], ["OC2I (TMSK1)"])
  | .outputCapture3 => (["OC3F (TFLG1)"], ["OC3I (TMSK1)"])
  | .outputCapture4 => (["OC4F (TFLG1)"], ["OC4I (TMSK1)"])
  | .outputCapture5 => (["IC4F/OC5F (TFLG1)"], ["IC4I/OC5I (TMSK1)"])
  | .timerOverflow => (["TOF (TFLG2)"], ["TOI (TMSK2)"])
  | .pulseAccumulatorOverflow => (["PAOVF (TFLG2)"], ["PAOVI (TMSK2)"])
  | .pulseAccumulatorEdge => (["PAIF (TFLG2)"], ["PAII (TMSK2)"])
  | .spi => (["SPIF (SPSR)", "MODF (SPSR)"], ["SPIE (SPCR)"])
  | .sci =>
    (["TDRE (SCSR)", "TC (SCSR)", "RDRF (SCSR)", "OR (SCSR)", "IDLE (SCSR)"],
      ["TIE (SCCR2)", "TCIE (SCCR2)", "RIE (SCCR2)", "ILIE (SCCR2)"])

end Sys2Proof.Machine
end

