-- ==== Sys2Proof/Tests/Slice0.lean ====
section
/-!
SUPPORT. Tests of single steps. Expected results come from spec/: the decode words are the `Encoding:` lines of the
instruction rules (R136 to R327), the steps are the vectors of 95_test_vectors.md (a test's name ends with the vector's
number), and each statement with hypotheses has a witness that meets them.
-/

namespace Sys2Proof.Tests

open Sys2Proof Sys2Proof.Machine

/-! ## Helpers -/

/-- A machine with these registers and these bytes of memory. -/
def machine (a b : Byte) (ix iy sp pc : Word) (ccr : Byte) (mem : Memory) : State :=
  { State.reset with a := a, b := b, ix := ix, iy := iy, sp := sp, pc := pc, ccr := ccr, mem := mem }

/-- Whether a step goes on to a state with a property. -/
def after (o : Out) (p : State → Bool) : Bool :=
  match o with
  | .next t => p t
  | .fault _ => false
  | .refused _ => false

/-- Whether bytes decode to an instruction by the default table and nothing is left over. -/
def decodesTo (p : List Byte × Instr) : Bool :=
  match decode defaultOpcodeMap p.1 with
  | .ok (i, rest) => i == p.2 && rest.isEmpty
  | .error _ => false

/-- Whether bytes select no instruction of the default table. -/
def refuses (bs : List Byte) : Bool :=
  match decode defaultOpcodeMap bs with
  | .ok _ => false
  | .error _ => true

/-! ## Well-formedness: the refused forms -/

theorem test_wf_refuses_direct_neg : (Instr.neg (.dir 0x40)).wf = false := by decide
theorem test_wf_refuses_direct_com : (Instr.com (.dir 0x40)).wf = false := by decide
theorem test_wf_refuses_direct_lsr : (Instr.lsr (.dir 0x40)).wf = false := by decide
theorem test_wf_refuses_direct_ror : (Instr.ror (.dir 0x40)).wf = false := by decide
theorem test_wf_refuses_direct_asr : (Instr.asr (.dir 0x40)).wf = false := by decide
theorem test_wf_refuses_direct_lsl : (Instr.lsl (.dir 0x40)).wf = false := by decide
theorem test_wf_refuses_direct_rol : (Instr.rol (.dir 0x40)).wf = false := by decide
theorem test_wf_refuses_direct_dec : (Instr.dec (.dir 0x40)).wf = false := by decide
theorem test_wf_refuses_direct_inc : (Instr.inc (.dir 0x40)).wf = false := by decide
theorem test_wf_refuses_direct_tst : (Instr.tst (.dir 0x40)).wf = false := by decide
theorem test_wf_refuses_direct_jmp : (Instr.jmp (.dir 0x40)).wf = false := by decide
theorem test_wf_refuses_direct_clr : (Instr.clr (.dir 0x40)).wf = false := by decide
theorem test_wf_refuses_extended_bset : (Instr.bset (.ext 0x0040) 0x81).wf = false := by decide
theorem test_wf_refuses_extended_bclr : (Instr.bclr (.ext 0x0040) 0x81).wf = false := by decide
theorem test_wf_refuses_extended_brset : (Instr.brset (.ext 0x0040) 0x81 0x05).wf = false := by decide
theorem test_wf_refuses_extended_brclr : (Instr.brclr (.ext 0x0040) 0x81 0x05).wf = false := by decide
theorem test_wf_takes_the_other_forms :
    [Instr.neg (.ext 0x0040), .neg (.indy 0x01), .bset (.dir 0x40) 0x81, .brclr (.indx 0x00) 0x81 0xFE].all Instr.wf =
      true := by decide

/-! ## Decoding: every encoding of the instruction rules -/

theorem test_decode_arithmetic_1 :
    [([0x1B], .aba), ([0x89, 0x5A], .adca (.imm 0x5A)), ([0x99, 0x40], .adca (.mem (.dir 0x40))),
      ([0xA9, 0x05], .adca (.mem (.indx 0x05))), ([0x18, 0xA9, 0xF6], .adca (.mem (.indy 0xF6))),
      ([0xB9, 0x12, 0x34], .adca (.mem (.ext 0x1234))), ([0xC9, 0x5A], .adcb (.imm 0x5A)),
      ([0xD9, 0x40], .adcb (.mem (.dir 0x40))), ([0xE9, 0x05], .adcb (.mem (.indx 0x05))),
      ([0x18, 0xE9, 0xF6], .adcb (.mem (.indy 0xF6))), ([0xF9, 0x12, 0x34], .adcb (.mem (.ext 0x1234))),
      ([0x8B, 0x5A], .adda (.imm 0x5A)), ([0x9B, 0x40], .adda (.mem (.dir 0x40))),
      ([0xAB, 0x05], .adda (.mem (.indx 0x05))), ([0x18, 0xAB, 0xF6], .adda (.mem (.indy 0xF6))),
      ([0xBB, 0x12, 0x34], .adda (.mem (.ext 0x1234))), ([0xCB, 0x5A], .addb (.imm 0x5A)),
      ([0xDB, 0x40], .addb (.mem (.dir 0x40))), ([0xEB, 0x05], .addb (.mem (.indx 0x05))),
      ([0x18, 0xEB, 0xF6], .addb (.mem (.indy 0xF6))), ([0xFB, 0x12, 0x34], .addb (.mem (.ext 0x1234))),
      ([0xC3, 0x12, 0x34], .addd (.imm 0x1234)), ([0xD3, 0x40], .addd (.mem (.dir 0x40))),
      ([0xE3, 0x05], .addd (.mem (.indx 0x05))), ([0x18, 0xE3, 0xF6], .addd (.mem (.indy 0xF6))),
      ([0xF3, 0x12, 0x34], .addd (.mem (.ext 0x1234)))].all decodesTo = true := by decide

theorem test_decode_arithmetic_2 :
    [([0x11], .cba), ([0x81, 0x5A], .cmpa (.imm 0x5A)), ([0x91, 0x40], .cmpa (.mem (.dir 0x40))),
      ([0xA1, 0x05], .cmpa (.mem (.indx 0x05))), ([0x18, 0xA1, 0xF6], .cmpa (.mem (.indy 0xF6))),
      ([0xB1, 0x12, 0x34], .cmpa (.mem (.ext 0x1234))), ([0xC1, 0x5A], .cmpb (.imm 0x5A)),
      ([0xD1, 0x40], .cmpb (.mem (.dir 0x40))), ([0xE1, 0x05], .cmpb (.mem (.indx 0x05))),
      ([0x18, 0xE1, 0xF6], .cmpb (.mem (.indy 0xF6))), ([0xF1, 0x12, 0x34], .cmpb (.mem (.ext 0x1234))),
      ([0x1A, 0x83, 0x12, 0x34], .cpd (.imm 0x1234)), ([0x1A, 0x93, 0x40], .cpd (.mem (.dir 0x40))),
      ([0x1A, 0xA3, 0x05], .cpd (.mem (.indx 0x05))), ([0xCD, 0xA3, 0xF6], .cpd (.mem (.indy 0xF6))),
      ([0x1A, 0xB3, 0x12, 0x34], .cpd (.mem (.ext 0x1234))), ([0x19], .daa), ([0x6A, 0x05], .dec (.indx 0x05)),
      ([0x18, 0x6A, 0xF6], .dec (.indy 0xF6)), ([0x7A, 0x12, 0x34], .dec (.ext 0x1234)), ([0x4A], .deca),
      ([0x5A], .decb), ([0x03], .fdiv), ([0x02], .idiv), ([0x6C, 0x05], .inc (.indx 0x05)),
      ([0x18, 0x6C, 0xF6], .inc (.indy 0xF6))].all decodesTo = true := by decide

theorem test_decode_arithmetic_3 :
    [([0x7C, 0x12, 0x34], .inc (.ext 0x1234)), ([0x4C], .inca), ([0x5C], .incb), ([0x3D], .mul),
      ([0x60, 0x05], .neg (.indx 0x05)), ([0x18, 0x60, 0xF6], .neg (.indy 0xF6)),
      ([0x70, 0x12, 0x34], .neg (.ext 0x1234)), ([0x40], .nega), ([0x50], .negb), ([0x10], .sba),
      ([0x82, 0x5A], .sbca (.imm 0x5A)), ([0x92, 0x40], .sbca (.mem (.dir 0x40))),
      ([0xA2, 0x05], .sbca (.mem (.indx 0x05))), ([0x18, 0xA2, 0xF6], .sbca (.mem (.indy 0xF6))),
      ([0xB2, 0x12, 0x34], .sbca (.mem (.ext 0x1234))), ([0xC2, 0x5A], .sbcb (.imm 0x5A)),
      ([0xD2, 0x40], .sbcb (.mem (.dir 0x40))), ([0xE2, 0x05], .sbcb (.mem (.indx 0x05))),
      ([0x18, 0xE2, 0xF6], .sbcb (.mem (.indy 0xF6))), ([0xF2, 0x12, 0x34], .sbcb (.mem (.ext 0x1234))),
      ([0x80, 0x5A], .suba (.imm 0x5A)), ([0x90, 0x40], .suba (.mem (.dir 0x40))),
      ([0xA0, 0x05], .suba (.mem (.indx 0x05))), ([0x18, 0xA0, 0xF6], .suba (.mem (.indy 0xF6))),
      ([0xB0, 0x12, 0x34], .suba (.mem (.ext 0x1234))), ([0xC0, 0x5A], .subb (.imm 0x5A))].all decodesTo = true := by decide

theorem test_decode_arithmetic_4 :
    [([0xD0, 0x40], .subb (.mem (.dir 0x40))), ([0xE0, 0x05], .subb (.mem (.indx 0x05))),
      ([0x18, 0xE0, 0xF6], .subb (.mem (.indy 0xF6))), ([0xF0, 0x12, 0x34], .subb (.mem (.ext 0x1234))),
      ([0x83, 0x12, 0x34], .subd (.imm 0x1234)), ([0x93, 0x40], .subd (.mem (.dir 0x40))),
      ([0xA3, 0x05], .subd (.mem (.indx 0x05))), ([0x18, 0xA3, 0xF6], .subd (.mem (.indy 0xF6))),
      ([0xB3, 0x12, 0x34], .subd (.mem (.ext 0x1234))), ([0x6D, 0x05], .tst (.indx 0x05)),
      ([0x18, 0x6D, 0xF6], .tst (.indy 0xF6)), ([0x7D, 0x12, 0x34], .tst (.ext 0x1234)), ([0x4D], .tsta),
      ([0x5D], .tstb)].all decodesTo = true := by decide

theorem test_decode_bitwise_1 :
    [([0x84, 0x5A], .anda (.imm 0x5A)), ([0x94, 0x40], .anda (.mem (.dir 0x40))),
      ([0xA4, 0x05], .anda (.mem (.indx 0x05))), ([0x18, 0xA4, 0xF6], .anda (.mem (.indy 0xF6))),
      ([0xB4, 0x12, 0x34], .anda (.mem (.ext 0x1234))), ([0xC4, 0x5A], .andb (.imm 0x5A)),
      ([0xD4, 0x40], .andb (.mem (.dir 0x40))), ([0xE4, 0x05], .andb (.mem (.indx 0x05))),
      ([0x18, 0xE4, 0xF6], .andb (.mem (.indy 0xF6))), ([0xF4, 0x12, 0x34], .andb (.mem (.ext 0x1234))),
      ([0x67, 0x05], .asr (.indx 0x05)), ([0x18, 0x67, 0xF6], .asr (.indy 0xF6)),
      ([0x77, 0x12, 0x34], .asr (.ext 0x1234)), ([0x47], .asra), ([0x57], .asrb),
      ([0x15, 0x40, 0x81], .bclr (.dir 0x40) 0x81), ([0x1D, 0x05, 0x81], .bclr (.indx 0x05) 0x81),
      ([0x18, 0x1D, 0xF6, 0x81], .bclr (.indy 0xF6) 0x81), ([0x85, 0x5A], .bita (.imm 0x5A)),
      ([0x95, 0x40], .bita (.mem (.dir 0x40))), ([0xA5, 0x05], .bita (.mem (.indx 0x05))),
      ([0x18, 0xA5, 0xF6], .bita (.mem (.indy 0xF6))), ([0xB5, 0x12, 0x34], .bita (.mem (.ext 0x1234))),
      ([0xC5, 0x5A], .bitb (.imm 0x5A)), ([0xD5, 0x40], .bitb (.mem (.dir 0x40))),
      ([0xE5, 0x05], .bitb (.mem (.indx 0x05)))].all decodesTo = true := by decide

theorem test_decode_bitwise_2 :
    [([0x18, 0xE5, 0xF6], .bitb (.mem (.indy 0xF6))), ([0xF5, 0x12, 0x34], .bitb (.mem (.ext 0x1234))),
      ([0x14, 0x40, 0x81], .bset (.dir 0x40) 0x81), ([0x1C, 0x05, 0x81], .bset (.indx 0x05) 0x81),
      ([0x18, 0x1C, 0xF6, 0x81], .bset (.indy 0xF6) 0x81), ([0x63, 0x05], .com (.indx 0x05)),
      ([0x18, 0x63, 0xF6], .com (.indy 0xF6)), ([0x73, 0x12, 0x34], .com (.ext 0x1234)), ([0x43], .coma),
      ([0x53], .comb), ([0x88, 0x5A], .eora (.imm 0x5A)), ([0x98, 0x40], .eora (.mem (.dir 0x40))),
      ([0xA8, 0x05], .eora (.mem (.indx 0x05))), ([0x18, 0xA8, 0xF6], .eora (.mem (.indy 0xF6))),
      ([0xB8, 0x12, 0x34], .eora (.mem (.ext 0x1234))), ([0xC8, 0x5A], .eorb (.imm 0x5A)),
      ([0xD8, 0x40], .eorb (.mem (.dir 0x40))), ([0xE8, 0x05], .eorb (.mem (.indx 0x05))),
      ([0x18, 0xE8, 0xF6], .eorb (.mem (.indy 0xF6))), ([0xF8, 0x12, 0x34], .eorb (.mem (.ext 0x1234))),
      ([0x68, 0x05], .lsl (.indx 0x05)), ([0x18, 0x68, 0xF6], .lsl (.indy 0xF6)),
      ([0x78, 0x12, 0x34], .lsl (.ext 0x1234)), ([0x48], .lsla), ([0x58], .lslb), ([0x05], .lsld)].all decodesTo = true := by decide

theorem test_decode_bitwise_3 :
    [([0x64, 0x05], .lsr (.indx 0x05)), ([0x18, 0x64, 0xF6], .lsr (.indy 0xF6)),
      ([0x74, 0x12, 0x34], .lsr (.ext 0x1234)), ([0x44], .lsra), ([0x54], .lsrb), ([0x04], .lsrd),
      ([0x8A, 0x5A], .oraa (.imm 0x5A)), ([0x9A, 0x40], .oraa (.mem (.dir 0x40))),
      ([0xAA, 0x05], .oraa (.mem (.indx 0x05))), ([0x18, 0xAA, 0xF6], .oraa (.mem (.indy 0xF6))),
      ([0xBA, 0x12, 0x34], .oraa (.mem (.ext 0x1234))), ([0xCA, 0x5A], .orab (.imm 0x5A)),
      ([0xDA, 0x40], .orab (.mem (.dir 0x40))), ([0xEA, 0x05], .orab (.mem (.indx 0x05))),
      ([0x18, 0xEA, 0xF6], .orab (.mem (.indy 0xF6))), ([0xFA, 0x12, 0x34], .orab (.mem (.ext 0x1234))),
      ([0x69, 0x05], .rol (.indx 0x05)), ([0x18, 0x69, 0xF6], .rol (.indy 0xF6)),
      ([0x79, 0x12, 0x34], .rol (.ext 0x1234)), ([0x49], .rola), ([0x59], .rolb), ([0x66, 0x05], .ror (.indx 0x05)),
      ([0x18, 0x66, 0xF6], .ror (.indy 0xF6)), ([0x76, 0x12, 0x34], .ror (.ext 0x1234)), ([0x46], .rora),
      ([0x56], .rorb)].all decodesTo = true := by decide

theorem test_decode_indexStack_1 :
    [([0x3A], .abx), ([0x18, 0x3A], .aby), ([0x8C, 0x12, 0x34], .cpx (.imm 0x1234)),
      ([0x9C, 0x40], .cpx (.mem (.dir 0x40))), ([0xAC, 0x05], .cpx (.mem (.indx 0x05))),
      ([0xCD, 0xAC, 0xF6], .cpx (.mem (.indy 0xF6))), ([0xBC, 0x12, 0x34], .cpx (.mem (.ext 0x1234))),
      ([0x18, 0x8C, 0x12, 0x34], .cpy (.imm 0x1234)), ([0x18, 0x9C, 0x40], .cpy (.mem (.dir 0x40))),
      ([0x1A, 0xAC, 0x05], .cpy (.mem (.indx 0x05))), ([0x18, 0xAC, 0xF6], .cpy (.mem (.indy 0xF6))),
      ([0x18, 0xBC, 0x12, 0x34], .cpy (.mem (.ext 0x1234))), ([0x34], .des), ([0x09], .dex), ([0x18, 0x09], .dey),
      ([0x31], .ins), ([0x08], .inx), ([0x18, 0x08], .iny), ([0x8E, 0x12, 0x34], .lds (.imm 0x1234)),
      ([0x9E, 0x40], .lds (.mem (.dir 0x40))), ([0xAE, 0x05], .lds (.mem (.indx 0x05))),
      ([0x18, 0xAE, 0xF6], .lds (.mem (.indy 0xF6))), ([0xBE, 0x12, 0x34], .lds (.mem (.ext 0x1234))),
      ([0xCE, 0x12, 0x34], .ldx (.imm 0x1234)), ([0xDE, 0x40], .ldx (.mem (.dir 0x40))),
      ([0xEE, 0x05], .ldx (.mem (.indx 0x05)))].all decodesTo = true := by decide

theorem test_decode_indexStack_2 :
    [([0xCD, 0xEE, 0xF6], .ldx (.mem (.indy 0xF6))), ([0xFE, 0x12, 0x34], .ldx (.mem (.ext 0x1234))),
      ([0x18, 0xCE, 0x12, 0x34], .ldy (.imm 0x1234)), ([0x18, 0xDE, 0x40], .ldy (.mem (.dir 0x40))),
      ([0x1A, 0xEE, 0x05], .ldy (.mem (.indx 0x05))), ([0x18, 0xEE, 0xF6], .ldy (.mem (.indy 0xF6))),
      ([0x18, 0xFE, 0x12, 0x34], .ldy (.mem (.ext 0x1234))), ([0x3C], .pshx), ([0x18, 0x3C], .pshy), ([0x38], .pulx),
      ([0x18, 0x38], .puly), ([0x9F, 0x40], .sts (.dir 0x40)), ([0xAF, 0x05], .sts (.indx 0x05)),
      ([0x18, 0xAF, 0xF6], .sts (.indy 0xF6)), ([0xBF, 0x12, 0x34], .sts (.ext 0x1234)),
      ([0xDF, 0x40], .stx (.dir 0x40)), ([0xEF, 0x05], .stx (.indx 0x05)), ([0xCD, 0xEF, 0xF6], .stx (.indy 0xF6)),
      ([0xFF, 0x12, 0x34], .stx (.ext 0x1234)), ([0x18, 0xDF, 0x40], .sty (.dir 0x40)),
      ([0x1A, 0xEF, 0x05], .sty (.indx 0x05)), ([0x18, 0xEF, 0xF6], .sty (.indy 0xF6)),
      ([0x18, 0xFF, 0x12, 0x34], .sty (.ext 0x1234)), ([0x30], .tsx), ([0x18, 0x30], .tsy), ([0x35], .txs)].all decodesTo = true := by decide

theorem test_decode_indexStack_3 :
    [([0x18, 0x35], .tys), ([0x8F], .xgdx), ([0x18, 0x8F], .xgdy)].all decodesTo = true := by decide

theorem test_decode_transfer_1 :
    [([0x6F, 0x05], .clr (.indx 0x05)), ([0x18, 0x6F, 0xF6], .clr (.indy 0xF6)),
      ([0x7F, 0x12, 0x34], .clr (.ext 0x1234)), ([0x4F], .clra), ([0x5F], .clrb), ([0x86, 0x5A], .ldaa (.imm 0x5A)),
      ([0x96, 0x40], .ldaa (.mem (.dir 0x40))), ([0xA6, 0x05], .ldaa (.mem (.indx 0x05))),
      ([0x18, 0xA6, 0xF6], .ldaa (.mem (.indy 0xF6))), ([0xB6, 0x12, 0x34], .ldaa (.mem (.ext 0x1234))),
      ([0xC6, 0x5A], .ldab (.imm 0x5A)), ([0xD6, 0x40], .ldab (.mem (.dir 0x40))),
      ([0xE6, 0x05], .ldab (.mem (.indx 0x05))), ([0x18, 0xE6, 0xF6], .ldab (.mem (.indy 0xF6))),
      ([0xF6, 0x12, 0x34], .ldab (.mem (.ext 0x1234))), ([0xCC, 0x12, 0x34], .ldd (.imm 0x1234)),
      ([0xDC, 0x40], .ldd (.mem (.dir 0x40))), ([0xEC, 0x05], .ldd (.mem (.indx 0x05))),
      ([0x18, 0xEC, 0xF6], .ldd (.mem (.indy 0xF6))), ([0xFC, 0x12, 0x34], .ldd (.mem (.ext 0x1234))),
      ([0x36], .psha), ([0x37], .pshb), ([0x32], .pula), ([0x33], .pulb), ([0x97, 0x40], .staa (.dir 0x40)),
      ([0xA7, 0x05], .staa (.indx 0x05))].all decodesTo = true := by decide

theorem test_decode_transfer_2 :
    [([0x18, 0xA7, 0xF6], .staa (.indy 0xF6)), ([0xB7, 0x12, 0x34], .staa (.ext 0x1234)),
      ([0xD7, 0x40], .stab (.dir 0x40)), ([0xE7, 0x05], .stab (.indx 0x05)),
      ([0x18, 0xE7, 0xF6], .stab (.indy 0xF6)), ([0xF7, 0x12, 0x34], .stab (.ext 0x1234)),
      ([0xDD, 0x40], .std (.dir 0x40)), ([0xED, 0x05], .std (.indx 0x05)), ([0x18, 0xED, 0xF6], .std (.indy 0xF6)),
      ([0xFD, 0x12, 0x34], .std (.ext 0x1234)), ([0x16], .tab), ([0x17], .tba)].all decodesTo = true := by decide

theorem test_decode_jumpBranch_1 :
    [([0x20, 0xFE], .bra 0xFE), ([0x21, 0xFE], .brn 0xFE), ([0x22, 0xFE], .bhi 0xFE), ([0x23, 0xFE], .bls 0xFE),
      ([0x24, 0xFE], .bcc 0xFE), ([0x25, 0xFE], .bcs 0xFE), ([0x26, 0xFE], .bne 0xFE), ([0x27, 0xFE], .beq 0xFE),
      ([0x28, 0xFE], .bvc 0xFE), ([0x29, 0xFE], .bvs 0xFE), ([0x2A, 0xFE], .bpl 0xFE), ([0x2B, 0xFE], .bmi 0xFE),
      ([0x2C, 0xFE], .bge 0xFE), ([0x2D, 0xFE], .blt 0xFE), ([0x2E, 0xFE], .bgt 0xFE), ([0x2F, 0xFE], .ble 0xFE),
      ([0x13, 0x40, 0x81, 0x07], .brclr (.dir 0x40) 0x81 0x07),
      ([0x1F, 0x05, 0x81, 0x07], .brclr (.indx 0x05) 0x81 0x07),
      ([0x18, 0x1F, 0xF6, 0x81, 0x07], .brclr (.indy 0xF6) 0x81 0x07),
      ([0x12, 0x40, 0x81, 0x07], .brset (.dir 0x40) 0x81 0x07),
      ([0x1E, 0x05, 0x81, 0x07], .brset (.indx 0x05) 0x81 0x07),
      ([0x18, 0x1E, 0xF6, 0x81, 0x07], .brset (.indy 0xF6) 0x81 0x07), ([0x8D, 0xFE], .bsr 0xFE),
      ([0x6E, 0x05], .jmp (.indx 0x05)), ([0x18, 0x6E, 0xF6], .jmp (.indy 0xF6)),
      ([0x7E, 0x12, 0x34], .jmp (.ext 0x1234))].all decodesTo = true := by decide

theorem test_decode_jumpBranch_2 :
    [([0x9D, 0x40], .jsr (.dir 0x40)), ([0xAD, 0x05], .jsr (.indx 0x05)), ([0x18, 0xAD, 0xF6], .jsr (.indy 0xF6)),
      ([0xBD, 0x12, 0x34], .jsr (.ext 0x1234)), ([0x01], .nop), ([0x3B], .rti), ([0x39], .rts), ([0xCF], .stop),
      ([0x3F], .swi), ([0x3E], .wai)].all decodesTo = true := by decide

theorem test_decode_conditionCodes_1 :
    [([0x0C], .clc), ([0x0E], .cli), ([0x0A], .clv), ([0x0D], .sec), ([0x0F], .sei), ([0x0B], .sev), ([0x06], .tap),
      ([0x07], .tpa)].all decodesTo = true := by decide

/-- 30_encoding.md R112 and R113: illegal codes, a prebyte without a row, a prebyte after a prebyte, truncation. -/
theorem test_decode_refuses :
    [[0x00], [0x41, 0, 0], [0x87, 0, 0], [0xC7, 0, 0], [0x18, 0x86, 0], [0x18, 0x18, 0xA6, 0], [0x1A, 0x01],
      [0xCD, 0xEC, 0], [0x18], [0xB6, 0x12], []].all refuses = true := by decide

/-- Another `OPCODE_MAP` (00_scope.md R7): three prebytes, and four rows. -/
def otherMap : OpcodeMap where
  page0 := [⟨0x08, .nop, .inh⟩, ⟨0x42, .ldaa, .imm8⟩]
  pages := [⟨0x18, [⟨0x86, .ldaa, .indy⟩]⟩, ⟨0x20, [⟨0x20, .brset, .indx⟩]⟩, ⟨0x21, []⟩]

/-- Its own bytes decode, a row of the default does not, a prebyte it names is one, and a row that gives an instruction a
form R107 does not give it selects nothing. -/
theorem test_decode_by_another_map :
    otherMap.wf = true ∧ decode otherMap [0x42, 0x5A] = .ok (.ldaa (.imm 0x5A), []) ∧
      decode otherMap [0x20, 0x20, 0x05, 0x81, 0xFE] = .ok (.brset (.indx 0x05) 0x81 0xFE, []) ∧
      decode otherMap [0x86, 0x5A] = .error (.illegalOpcode none 0x86) ∧
      decode otherMap [0x21, 0x00] = .error (.illegalOpcode (some 0x21) 0x00) ∧
      decode { otherMap with page0 := [⟨0x42, .jmp, .dir⟩] } [0x42, 0x40] = .error (.illegalOpcode none 0x42) := by
  decide

theorem test_default_map_is_wf : defaultOpcodeMap.wf = true := by decide +kernel

/-- A step decodes by the configured table: 0x42 0x5A is LDAA #0x5A there. -/
theorem test_step_uses_the_configured_map :
    after (step { machine 0 0 0 0 0x01FF 0x2000 0xD0 [(0x2000, 0x42), (0x2001, 0x5A)] with
      cfg := { Config.initial with opcodeMap := otherMap } }) (fun t => t.a == 0x5A && t.pc == 0x2002) = true := by
  decide

/-- The words of spec/opcode_table.json: the prebyte in the high half, else the first byte in the low bits (log 2). -/
theorem test_table_words :
    decodeTableWord 8 0x1B = some .aba ∧ decodeTableWord 16 0x1808 = some .iny ∧
      decodeTableWord 8 0x8B = some (.adda (.imm 0)) ∧ decodeTableWord 16 0xCDA3 = some (.cpd (.mem (.indy 0))) := by
  decide

/-- The first instruction after reset is the one placed where the step fetches. -/
theorem test_fetch_word_runs :
    after (step (State.reset.withFetchWord 16 0x1808)) (fun t => t.iy == 0x0001 && t.pc == 0x0002) = true := by decide

/-! ## Single steps: the vectors of 95_test_vectors.md -/

theorem test_adda_a1 :
    after (step (machine 0x0F 0x00 0x0000 0x0000 0x01FF 0x2000 0xD0 [(0x2000, 0x8B), (0x2001, 0x01)])) (fun t =>
      t.a == 0x10 && t.ccr == 0xF0) = true := by decide

theorem test_adda_a2 :
    after (step (machine 0x7F 0x00 0x0000 0x0000 0x01FF 0x2000 0xD0 [(0x2000, 0x8B), (0x2001, 0x01)])) (fun t =>
      t.a == 0x80 && t.ccr == 0xFA) = true := by decide

theorem test_addb_a6 :
    after (step (machine 0x00 0x12 0x0000 0x0000 0x01FF 0x2000 0xD0 [(0x0040, 0x34), (0x2000, 0xDB),
        (0x2001, 0x40)])) (fun t =>
      t.b == 0x46 && t.ccr == 0xD0) = true := by decide

theorem test_adca_a10 :
    after (step (machine 0xFF 0x00 0x0000 0x0000 0x01FF 0x2000 0xD1 [(0x2000, 0x89), (0x2001, 0x00)])) (fun t =>
      t.a == 0x00 && t.ccr == 0xF5) = true := by decide

theorem test_adcb_a11 :
    after (step (machine 0x00 0x7F 0x0000 0x0000 0x01FF 0x2000 0xD1 [(0x2000, 0xC9), (0x2001, 0x00)])) (fun t =>
      t.b == 0x80 && t.ccr == 0xFA) = true := by decide

theorem test_aba_a14 :
    after (step (machine 0x58 0x29 0x0000 0x0000 0x01FF 0x2000 0xD0 [(0x2000, 0x1B)])) (fun t =>
      t.a == 0x81 && t.ccr == 0xFA) = true := by decide

theorem test_addd_a16 :
    after (step (machine 0x7F 0xFF 0x0000 0x0000 0x01FF 0x2000 0xD0 [(0x2000, 0xC3), (0x2001, 0x00),
        (0x2002, 0x01)])) (fun t =>
      t.a == 0x80 && t.b == 0x00 && t.ccr == 0xDA) = true := by decide

theorem test_addd_a17 :
    after (step (machine 0xFF 0xFF 0x0000 0x0000 0x01FF 0x2000 0xD0 [(0x2000, 0xC3), (0x2001, 0x00),
        (0x2002, 0x01)])) (fun t =>
      t.a == 0x00 && t.b == 0x00 && t.ccr == 0xD5) = true := by decide

theorem test_suba_a21 :
    after (step (machine 0x00 0x00 0x0000 0x0000 0x01FF 0x2000 0xD0 [(0x2000, 0x80), (0x2001, 0x01)])) (fun t =>
      t.a == 0xFF && t.ccr == 0xD9) = true := by decide

theorem test_suba_a22 :
    after (step (machine 0x80 0x00 0x0000 0x0000 0x01FF 0x2000 0xD0 [(0x2000, 0x80), (0x2001, 0x01)])) (fun t =>
      t.a == 0x7F && t.ccr == 0xD2) = true := by decide

theorem test_subb_a24 :
    after (step (machine 0x00 0x7F 0x0000 0x0000 0x01FF 0x2000 0xD0 [(0x2000, 0xC0), (0x2001, 0x80)])) (fun t =>
      t.b == 0xFF && t.ccr == 0xDB) = true := by decide

theorem test_sbca_a26 :
    after (step (machine 0x00 0x00 0x0000 0x0000 0x01FF 0x2000 0xD1 [(0x2000, 0x82), (0x2001, 0x00)])) (fun t =>
      t.a == 0xFF && t.ccr == 0xD9) = true := by decide

theorem test_sbcb_a27 :
    after (step (machine 0x00 0x80 0x0000 0x0000 0x01FF 0x2000 0xD1 [(0x2000, 0xC2), (0x2001, 0x7F)])) (fun t =>
      t.b == 0x00 && t.ccr == 0xD6) = true := by decide

theorem test_sbca_a28 :
    after (step (machine 0x00 0x00 0x0000 0x0000 0x01FF 0x2000 0xD1 [(0x2000, 0x82), (0x2001, 0xFF)])) (fun t =>
      t.ccr == 0xD5) = true := by decide

theorem test_sba_a29 :
    after (step (machine 0x10 0x20 0x0000 0x0000 0x01FF 0x2000 0xD0 [(0x2000, 0x10)])) (fun t =>
      t.a == 0xF0 && t.ccr == 0xD9) = true := by decide

theorem test_cba_a30 :
    after (step (machine 0x10 0x20 0x0000 0x0000 0x01FF 0x2000 0xD0 [(0x2000, 0x11)])) (fun t =>
      t.ccr == 0xD9) = true := by decide

theorem test_cmpa_a31 :
    after (step (machine 0x7F 0x00 0x0000 0x0000 0x01FF 0x2000 0xD0 [(0x2000, 0x81), (0x2001, 0x80)])) (fun t =>
      t.ccr == 0xDB) = true := by decide

theorem test_cmpb_a32 :
    after (step (machine 0x00 0x42 0x0300 0x0000 0x01FF 0x2000 0xD0 [(0x0300, 0x42), (0x2000, 0xE1),
        (0x2001, 0x00)])) (fun t =>
      t.ccr == 0xD4) = true := by decide

theorem test_subd_a33 :
    after (step (machine 0x00 0x00 0x0000 0x0000 0x01FF 0x2000 0xD0 [(0x2000, 0x83), (0x2001, 0x00),
        (0x2002, 0x01)])) (fun t =>
      t.a == 0xFF && t.b == 0xFF && t.ccr == 0xD9) = true := by decide

theorem test_subd_a34 :
    after (step (machine 0x80 0x00 0x0000 0x0000 0x01FF 0x2000 0xD0 [(0x2000, 0x83), (0x2001, 0x00),
        (0x2002, 0x01)])) (fun t =>
      t.a == 0x7F && t.b == 0xFF && t.ccr == 0xD2) = true := by decide

theorem test_cpd_a36 :
    after (step (machine 0x12 0x34 0x0000 0x0000 0x01FF 0x2000 0xD0 [(0x2000, 0x1A), (0x2001, 0x83),
        (0x2002, 0x12), (0x2003, 0x34)])) (fun t =>
      t.ccr == 0xD4) = true := by decide

theorem test_cpd_a37 :
    after (step (machine 0x12 0x34 0x0000 0x0000 0x01FF 0x2000 0xD0 [(0x2000, 0x1A), (0x2001, 0x83),
        (0x2002, 0x12), (0x2003, 0x35)])) (fun t =>
      t.ccr == 0xD9) = true := by decide

theorem test_nega_a40 :
    after (step (machine 0x00 0x00 0x0000 0x0000 0x01FF 0x2000 0xD1 [(0x2000, 0x40)])) (fun t =>
      t.ccr == 0xD4) = true := by decide

theorem test_negb_a42 :
    after (step (machine 0x00 0x01 0x0000 0x0000 0x01FF 0x2000 0xD0 [(0x2000, 0x50)])) (fun t =>
      t.b == 0xFF && t.ccr == 0xD9) = true := by decide

theorem test_neg_a43 :
    after (step (machine 0x00 0x00 0x0000 0x0000 0x01FF 0x2000 0xD0 [(0x0300, 0x7F), (0x2000, 0x70),
        (0x2001, 0x03), (0x2002, 0x00)])) (fun t =>
      t.ccr == 0xD9 && t.memByte 0x0300 == 0x81) = true := by decide

theorem test_inca_a45 :
    after (step (machine 0x7F 0x00 0x0000 0x0000 0x01FF 0x2000 0xD1 [(0x2000, 0x4C)])) (fun t =>
      t.a == 0x80 && t.ccr == 0xDB) = true := by decide

theorem test_incb_a46 :
    after (step (machine 0x00 0xFF 0x0000 0x0000 0x01FF 0x2000 0xD0 [(0x2000, 0x5C)])) (fun t =>
      t.b == 0x00 && t.ccr == 0xD4) = true := by decide

theorem test_inc_a47 :
    after (step (machine 0x00 0x00 0x0000 0x0000 0x01FF 0x2000 0xD0 [(0x0300, 0x00), (0x2000, 0x7C),
        (0x2001, 0x03), (0x2002, 0x00)])) (fun t =>
      t.memByte 0x0300 == 0x01 && t.ccr == 0xD0) = true := by decide

theorem test_deca_a49 :
    after (step (machine 0x80 0x00 0x0000 0x0000 0x01FF 0x2000 0xD0 [(0x2000, 0x4A)])) (fun t =>
      t.a == 0x7F && t.ccr == 0xD2) = true := by decide

theorem test_decb_a50 :
    after (step (machine 0x00 0x00 0x0000 0x0000 0x01FF 0x2000 0xD0 [(0x2000, 0x5A)])) (fun t =>
      t.b == 0xFF && t.ccr == 0xD8) = true := by decide

theorem test_dec_a52 :
    after (step (machine 0x00 0x00 0x0000 0x0300 0x01FF 0x2000 0xD0 [(0x0300, 0x01), (0x2000, 0x18),
        (0x2001, 0x6A), (0x2002, 0x00)])) (fun t =>
      t.ccr == 0xD4 && t.memByte 0x0300 == 0x00) = true := by decide

theorem test_tsta_a53 :
    after (step (machine 0x80 0x00 0x0000 0x0000 0x01FF 0x2000 0xD3 [(0x2000, 0x4D)])) (fun t =>
      t.ccr == 0xD8) = true := by decide

theorem test_tstb_a54 :
    after (step (machine 0x00 0x00 0x0000 0x0000 0x01FF 0x2000 0xDB [(0x2000, 0x5D)])) (fun t =>
      t.ccr == 0xD4) = true := by decide

theorem test_tst_a55 :
    after (step (machine 0x00 0x00 0x0000 0x0000 0x01FF 0x2000 0xD0 [(0x0300, 0x7F), (0x2000, 0x7D),
        (0x2001, 0x03), (0x2002, 0x00)])) (fun t =>
      t.pc == 0x2003 && t.ccr == 0xD0) = true := by decide

theorem test_daa_a56 :
    after (step (machine 0x81 0x00 0x0000 0x0000 0x01FF 0x2000 0xF0 [(0x2000, 0x19)])) (fun t =>
      t.a == 0x87) = true := by decide

theorem test_daa_a57 :
    after (step (machine 0x9A 0x00 0x0000 0x0000 0x01FF 0x2000 0xD0 [(0x2000, 0x19)])) (fun t =>
      t.a == 0x00) = true := by decide

theorem test_mul_a65 :
    after (step (machine 0x10 0x08 0x0000 0x0000 0x01FF 0x2000 0xD0 [(0x2000, 0x3D)])) (fun t =>
      t.a == 0x00 && t.b == 0x80 && t.ccr == 0xD1) = true := by decide

theorem test_mul_a67 :
    after (step (machine 0x0C 0x0C 0x0000 0x0000 0x01FF 0x2000 0xDE [(0x2000, 0x3D)])) (fun t =>
      t.a == 0x00 && t.b == 0x90 && t.ccr == 0xDF) = true := by decide

theorem test_idiv_a68 :
    after (step (machine 0x00 0x64 0x0007 0x0000 0x01FF 0x2000 0xD0 [(0x2000, 0x02)])) (fun t =>
      t.b == 0x02 && t.ix == 0x000E) = true := by decide

theorem test_idiv_a69 :
    after (step (machine 0xFF 0xFF 0x0001 0x0000 0x01FF 0x2000 0xD0 [(0x2000, 0x02)])) (fun t =>
      t.a == 0x00 && t.b == 0x00 && t.ix == 0xFFFF) = true := by decide

theorem test_fdiv_a73 :
    after (step (machine 0x00 0x01 0x0002 0x0000 0x01FF 0x2000 0xD0 [(0x2000, 0x03)])) (fun t =>
      t.b == 0x00 && t.ix == 0x8000) = true := by decide

theorem test_fdiv_a74 :
    after (step (machine 0x00 0x01 0x0003 0x0000 0x01FF 0x2000 0xD0 [(0x2000, 0x03)])) (fun t =>
      t.ix == 0x5555 && t.ccr == 0xD0) = true := by decide

theorem test_bra_j1 :
    after (step (machine 0x00 0x00 0x0000 0x0000 0x01FF 0x2000 0xD0 [(0x2000, 0x20), (0x2001, 0x7F)])) (fun t =>
      t.pc == 0x2081 && t.ccr == 0xD0) = true := by decide

theorem test_brn_j5 :
    after (step (machine 0x00 0x00 0x0000 0x0000 0x01FF 0x2000 0xD0 [(0x2000, 0x21), (0x2001, 0x10)])) (fun t =>
      t.pc == 0x2002 && t.ccr == 0xD0) = true := by decide

theorem test_beq_j6 :
    after (step (machine 0x00 0x00 0x0000 0x0000 0x01FF 0x2000 0xD4 [(0x2000, 0x27), (0x2001, 0x05)])) (fun t =>
      t.pc == 0x2007 && t.ccr == 0xD4) = true := by decide

theorem test_bhi_j8 :
    after (step (machine 0x00 0x00 0x0000 0x0000 0x01FF 0x2000 0xD0 [(0x2000, 0x22), (0x2001, 0xFC)])) (fun t =>
      t.pc == 0x1FFE && t.ccr == 0xD0) = true := by decide

theorem test_ble_j9 :
    after (step (machine 0x00 0x00 0x0000 0x0000 0x01FF 0x2000 0xD8 [(0x2000, 0x2F), (0x2001, 0x02)])) (fun t =>
      t.pc == 0x2004 && t.ccr == 0xD8) = true := by decide

theorem test_bgt_j10 :
    after (step (machine 0x00 0x00 0x0000 0x0000 0x01FF 0x2000 0xDA [(0x2000, 0x2E), (0x2001, 0x02)])) (fun t =>
      t.pc == 0x2004 && t.ccr == 0xDA) = true := by decide

theorem test_brset_j11 :
    after (step (machine 0x00 0x00 0x0000 0x0000 0x01FF 0x2000 0xD0 [(0x0040, 0xC1), (0x2000, 0x12),
        (0x2001, 0x40), (0x2002, 0x81), (0x2003, 0x10)])) (fun t =>
      t.pc == 0x2014 && t.ccr == 0xD0) = true := by decide

theorem test_brset_j12 :
    after (step (machine 0x00 0x00 0x0000 0x0000 0x01FF 0x2000 0xD0 [(0x0040, 0x80), (0x2000, 0x12),
        (0x2001, 0x40), (0x2002, 0x81), (0x2003, 0x10)])) (fun t =>
      t.pc == 0x2004 && t.ccr == 0xD0) = true := by decide

theorem test_brclr_j14 :
    after (step (machine 0x00 0x00 0x0000 0x0000 0x01FF 0x2000 0xD0 [(0x0040, 0x7E), (0x2000, 0x13),
        (0x2001, 0x40), (0x2002, 0x81), (0x2003, 0xFC)])) (fun t =>
      t.pc == 0x2000 && t.ccr == 0xD0) = true := by decide

theorem test_brclr_j15 :
    after (step (machine 0x00 0x00 0x0000 0x0300 0x01FF 0x2000 0xD0 [(0x0301, 0xF1), (0x2000, 0x18),
        (0x2001, 0x1F), (0x2002, 0x01), (0x2003, 0x0F), (0x2004, 0x20)])) (fun t =>
      t.pc == 0x2005 && t.ccr == 0xD0) = true := by decide

theorem test_bsr_j17 :
    after (step (machine 0x00 0x00 0x0000 0x0000 0x01FF 0x2000 0xD0 [(0x2000, 0x8D), (0x2001, 0x10)])) (fun t =>
      t.pc == 0x2012 && t.sp == 0x01FD && t.memByte 0x01FF == 0x02) = true := by decide

theorem test_jsr_j19 :
    after (step (machine 0x00 0x00 0x0000 0x0000 0x01FF 0x2000 0xD0 [(0x2000, 0x9D), (0x2001, 0x40)])) (fun t =>
      t.pc == 0x0040 && t.sp == 0x01FD && t.memByte 0x01FF == 0x02) = true := by decide

theorem test_jsr_j20 :
    after (step (machine 0x00 0x00 0x0000 0x0000 0x01FF 0x2000 0xD0 [(0x2000, 0xBD), (0x2001, 0x30),
        (0x2002, 0x00)])) (fun t =>
      t.pc == 0x3000 && t.sp == 0x01FD && t.memByte 0x01FF == 0x03) = true := by decide

theorem test_jmp_j23 :
    after (step (machine 0x00 0x00 0x0000 0x0000 0x01FF 0x2000 0xD0 [(0x2000, 0x7E), (0x2001, 0x30),
        (0x2002, 0x00)])) (fun t =>
      t.pc == 0x3000 && t.ccr == 0xD0) = true := by decide

theorem test_rts_j26 :
    after (step (machine 0x00 0x00 0x0000 0x0000 0x01FD 0x2000 0xD0 [(0x01FE, 0x20), (0x01FF, 0x03),
        (0x2000, 0x39)])) (fun t =>
      t.pc == 0x2003 && t.sp == 0x01FF) = true := by decide

theorem test_nop_j27 :
    after (step (machine 0x00 0x00 0x0000 0x0000 0x01FF 0x2000 0xFF [(0x2000, 0x01)])) (fun t =>
      t.pc == 0x2001 && t.ccr == 0xFF) = true := by decide

theorem test_stop_j28 :
    after (step (machine 0x00 0x00 0x0000 0x0000 0x01FF 0x2000 0xD0 [(0x2000, 0xCF)])) (fun t =>
      t.pc == 0x2001 && t.ccr == 0xD0) = true := by decide

theorem test_stop_j29 :
    after (step (machine 0x00 0x00 0x0000 0x0000 0x01FF 0x2000 0x50 [(0x2000, 0xCF)])) (fun t =>
      t.run == .stopped && t.ccr == 0x50) = true := by decide

theorem test_swi_j30 :
    after (step (machine 0x11 0x22 0x3344 0x5566 0x01FF 0x2000 0xC5 [(0x2000, 0x3F), (0xFFF6, 0x40),
        (0xFFF7, 0x00)])) (fun t =>
      t.pc == 0x4000 && t.sp == 0x01F6 && t.ccr == 0xD5 && t.memByte 0x01FF == 0x01 && t.memByte 0x01FE == 0x20 &&
        t.memByte 0x01FD == 0x66 && t.memByte 0x01FC == 0x55 && t.memByte 0x01FB == 0x44 && t.memByte 0x01FA == 0x33 && t.memByte 0x01F9 == 0x11 && t.memByte 0x01F8 == 0x22 && t.memByte 0x01F7 == 0xC5) = true := by decide

theorem test_swi_j31 :
    after (step (machine 0x11 0x22 0x3344 0x5566 0x0003 0x2000 0x80 [(0x2000, 0x3F), (0xFFF6, 0x40),
        (0xFFF7, 0x00)])) (fun t =>
      t.pc == 0x4000 && t.sp == 0xFFFA && t.ccr == 0x90 && t.memByte 0xFFFF == 0x44 && t.memByte 0xFFFE == 0x33 &&
        t.memByte 0xFFFD == 0x11 && t.memByte 0xFFFC == 0x22 && t.memByte 0xFFFB == 0x80 && t.memByte 0x0003 == 0x01 && t.memByte 0x0002 == 0x20 && t.memByte 0x0001 == 0x66 && t.memByte 0x0000 == 0x55) = true := by decide

theorem test_rti_j32 :
    after (step (machine 0x00 0x00 0x0000 0x0000 0x01F6 0x2000 0xD0 [(0x01F7, 0x85), (0x01F8, 0x22),
        (0x01F9, 0x11), (0x01FA, 0x33), (0x01FB, 0x44), (0x01FC, 0x55), (0x01FD, 0x66), (0x01FE, 0x20), (0x01FF, 0x01), (0x2000, 0x3B)])) (fun t =>
      t.pc == 0x2001 && t.a == 0x11 && t.b == 0x22 && t.ix == 0x3344 && t.iy == 0x5566 && t.sp == 0x01FF &&
        t.ccr == 0x85) = true := by decide

theorem test_rti_j33 :
    after (step (machine 0x00 0x00 0x0000 0x0000 0x01F6 0x2000 0x90 [(0x01F7, 0xFF), (0x01F8, 0x00),
        (0x01F9, 0x00), (0x01FA, 0x00), (0x01FB, 0x00), (0x01FC, 0x00), (0x01FD, 0x00), (0x01FE, 0x30), (0x01FF, 0x00), (0x2000, 0x3B)])) (fun t =>
      t.pc == 0x3000 && t.sp == 0x01FF && t.ccr == 0xBF) = true := by decide

theorem test_wai_j34 :
    after (step (machine 0x11 0x22 0x3344 0x5566 0x01FF 0x2000 0xC0 [(0x2000, 0x3E)])) (fun t =>
      t.sp == 0x01F6 && t.memByte 0x01FF == 0x01 && t.memByte 0x01FE == 0x20 && t.memByte 0x01FD == 0x66 &&
        t.memByte 0x01FC == 0x55 && t.memByte 0x01FB == 0x44 && t.memByte 0x01FA == 0x33 && t.memByte 0x01F9 == 0x11 && t.memByte 0x01F8 == 0x22 && t.memByte 0x01F7 == 0xC0 && t.run == .waiting) = true := by decide

theorem test_clc_k1 :
    after (step (machine 0x00 0x00 0x0000 0x0000 0x01FF 0x2000 0xFF [(0x2000, 0x0C)])) (fun t =>
      t.ccr == 0xFE) = true := by decide

theorem test_sec_k2 :
    after (step (machine 0x00 0x00 0x0000 0x0000 0x01FF 0x2000 0xD0 [(0x2000, 0x0D)])) (fun t =>
      t.ccr == 0xD1) = true := by decide

theorem test_clv_k3 :
    after (step (machine 0x00 0x00 0x0000 0x0000 0x01FF 0x2000 0xFF [(0x2000, 0x0A)])) (fun t =>
      t.ccr == 0xFD) = true := by decide

theorem test_sev_k4 :
    after (step (machine 0x00 0x00 0x0000 0x0000 0x01FF 0x2000 0xD0 [(0x2000, 0x0B)])) (fun t =>
      t.ccr == 0xD2) = true := by decide

theorem test_cli_k5 :
    after (step (machine 0x00 0x00 0x0000 0x0000 0x01FF 0x2000 0xD0 [(0x2000, 0x0E)])) (fun t =>
      t.ccr == 0xC0) = true := by decide

theorem test_sei_k6 :
    after (step (machine 0x00 0x00 0x0000 0x0000 0x01FF 0x2000 0xC0 [(0x2000, 0x0F)])) (fun t =>
      t.ccr == 0xD0) = true := by decide

theorem test_tpa_k7 :
    after (step (machine 0x00 0x00 0x0000 0x0000 0x01FF 0x2000 0xD5 [(0x2000, 0x07)])) (fun t =>
      t.a == 0xD5 && t.ccr == 0xD5) = true := by decide

theorem test_tap_k8 :
    after (step (machine 0x00 0x00 0x0000 0x0000 0x01FF 0x2000 0xD0 [(0x2000, 0x06)])) (fun t =>
      t.ccr == 0x00) = true := by decide

theorem test_tap_k9 :
    after (step (machine 0xFF 0x00 0x0000 0x0000 0x01FF 0x2000 0x00 [(0x2000, 0x06)])) (fun t =>
      t.ccr == 0xBF) = true := by decide

theorem test_anda_l1 :
    after (step (machine 0xF0 0x00 0x0000 0x0000 0x01FF 0x2000 0xD3 [(0x2000, 0x84), (0x2001, 0x0F)])) (fun t =>
      t.a == 0x00 && t.ccr == 0xD5) = true := by decide

theorem test_andb_l2 :
    after (step (machine 0x00 0xFF 0x0000 0x0000 0x01FF 0x2000 0xD0 [(0x0040, 0x80), (0x2000, 0xD4),
        (0x2001, 0x40)])) (fun t =>
      t.b == 0x80 && t.ccr == 0xD8) = true := by decide

theorem test_bita_l3 :
    after (step (machine 0x7F 0x00 0x0000 0x0000 0x01FF 0x2000 0xD0 [(0x2000, 0x85), (0x2001, 0x80)])) (fun t =>
      t.ccr == 0xD4) = true := by decide

theorem test_bitb_l4 :
    after (step (machine 0x00 0xC0 0x0300 0x0000 0x01FF 0x2000 0xD0 [(0x0300, 0x80), (0x2000, 0xE5),
        (0x2001, 0x00)])) (fun t =>
      t.ccr == 0xD8) = true := by decide

theorem test_oraa_l5 :
    after (step (machine 0x01 0x00 0x0000 0x0000 0x01FF 0x2000 0xD0 [(0x2000, 0x8A), (0x2001, 0x80)])) (fun t =>
      t.a == 0x81 && t.ccr == 0xD8) = true := by decide

theorem test_orab_l6 :
    after (step (machine 0x00 0x00 0x0000 0x0000 0x01FF 0x2000 0xD0 [(0x0300, 0x00), (0x2000, 0xFA),
        (0x2001, 0x03), (0x2002, 0x00)])) (fun t =>
      t.ccr == 0xD4) = true := by decide

theorem test_eora_l7 :
    after (step (machine 0x55 0x00 0x0000 0x0000 0x01FF 0x2000 0xD0 [(0x2000, 0x88), (0x2001, 0xFF)])) (fun t =>
      t.a == 0xAA && t.ccr == 0xD8) = true := by decide

theorem test_eorb_l8 :
    after (step (machine 0x00 0xAA 0x0000 0x0300 0x01FF 0x2000 0xD0 [(0x0300, 0xAA), (0x2000, 0x18),
        (0x2001, 0xE8), (0x2002, 0x00)])) (fun t =>
      t.b == 0x00 && t.ccr == 0xD4) = true := by decide

theorem test_coma_l9 :
    after (step (machine 0xFF 0x00 0x0000 0x0000 0x01FF 0x2000 0xD0 [(0x2000, 0x43)])) (fun t =>
      t.a == 0x00 && t.ccr == 0xD5) = true := by decide

theorem test_comb_l10 :
    after (step (machine 0x00 0x00 0x0000 0x0000 0x01FF 0x2000 0xD0 [(0x2000, 0x53)])) (fun t =>
      t.b == 0xFF && t.ccr == 0xD9) = true := by decide

theorem test_com_l11 :
    after (step (machine 0x00 0x00 0x0000 0x0000 0x01FF 0x2000 0xD0 [(0x0300, 0x0F), (0x2000, 0x73),
        (0x2001, 0x03), (0x2002, 0x00)])) (fun t =>
      t.ccr == 0xD9 && t.memByte 0x0300 == 0xF0) = true := by decide

theorem test_lsla_l12 :
    after (step (machine 0x80 0x00 0x0000 0x0000 0x01FF 0x2000 0xD0 [(0x2000, 0x48)])) (fun t =>
      t.a == 0x00 && t.ccr == 0xD7) = true := by decide

theorem test_lslb_l15 :
    after (step (machine 0x00 0x01 0x0000 0x0000 0x01FF 0x2000 0xD1 [(0x2000, 0x58)])) (fun t =>
      t.b == 0x02 && t.ccr == 0xD0) = true := by decide

theorem test_lsl_l16 :
    after (step (machine 0x00 0x00 0x0000 0x0000 0x01FF 0x2000 0xD0 [(0x0300, 0x55), (0x2000, 0x78),
        (0x2001, 0x03), (0x2002, 0x00)])) (fun t =>
      t.ccr == 0xDA && t.memByte 0x0300 == 0xAA) = true := by decide

theorem test_lsld_l18 :
    after (step (machine 0x40 0x00 0x0000 0x0000 0x01FF 0x2000 0xD0 [(0x2000, 0x05)])) (fun t =>
      t.a == 0x80 && t.ccr == 0xDA) = true := by decide

theorem test_lsld_l19 :
    after (step (machine 0x80 0x00 0x0000 0x0000 0x01FF 0x2000 0xD0 [(0x2000, 0x05)])) (fun t =>
      t.a == 0x00 && t.ccr == 0xD7) = true := by decide

theorem test_lsra_l21 :
    after (step (machine 0x01 0x00 0x0000 0x0000 0x01FF 0x2000 0xD0 [(0x2000, 0x44)])) (fun t =>
      t.a == 0x00 && t.ccr == 0xD7) = true := by decide

theorem test_lsrb_l22 :
    after (step (machine 0x00 0x80 0x0000 0x0000 0x01FF 0x2000 0xD9 [(0x2000, 0x54)])) (fun t =>
      t.b == 0x40 && t.ccr == 0xD0) = true := by decide

theorem test_lsr_l23 :
    after (step (machine 0x00 0x00 0x0000 0x0300 0x01FF 0x2000 0xD0 [(0x0300, 0xFF), (0x2000, 0x18),
        (0x2001, 0x64), (0x2002, 0x00)])) (fun t =>
      t.ccr == 0xD3 && t.memByte 0x0300 == 0x7F) = true := by decide

theorem test_lsrd_l24 :
    after (step (machine 0x00 0x01 0x0000 0x0000 0x01FF 0x2000 0xD0 [(0x2000, 0x04)])) (fun t =>
      t.b == 0x00 && t.ccr == 0xD7) = true := by decide

theorem test_asra_l26 :
    after (step (machine 0x81 0x00 0x0000 0x0000 0x01FF 0x2000 0xD0 [(0x2000, 0x47)])) (fun t =>
      t.a == 0xC0 && t.ccr == 0xD9) = true := by decide

theorem test_asrb_l27 :
    after (step (machine 0x00 0x80 0x0000 0x0000 0x01FF 0x2000 0xD0 [(0x2000, 0x57)])) (fun t =>
      t.b == 0xC0 && t.ccr == 0xDA) = true := by decide

theorem test_asra_l28 :
    after (step (machine 0x01 0x00 0x0000 0x0000 0x01FF 0x2000 0xD0 [(0x2000, 0x47)])) (fun t =>
      t.a == 0x00 && t.ccr == 0xD7) = true := by decide

theorem test_asr_l29 :
    after (step (machine 0x00 0x00 0x0000 0x0000 0x01FF 0x2000 0xD0 [(0x0300, 0xFE), (0x2000, 0x77),
        (0x2001, 0x03), (0x2002, 0x00)])) (fun t =>
      t.ccr == 0xDA && t.memByte 0x0300 == 0xFF) = true := by decide

theorem test_rola_l30 :
    after (step (machine 0x80 0x00 0x0000 0x0000 0x01FF 0x2000 0xD1 [(0x2000, 0x49)])) (fun t =>
      t.a == 0x01 && t.ccr == 0xD3) = true := by decide

theorem test_rolb_l31 :
    after (step (machine 0x00 0x40 0x0000 0x0000 0x01FF 0x2000 0xD0 [(0x2000, 0x59)])) (fun t =>
      t.b == 0x80 && t.ccr == 0xDA) = true := by decide

theorem test_rola_l32 :
    after (step (machine 0x80 0x00 0x0000 0x0000 0x01FF 0x2000 0xD0 [(0x2000, 0x49)])) (fun t =>
      t.a == 0x00 && t.ccr == 0xD7) = true := by decide

theorem test_rol_l33 :
    after (step (machine 0x00 0x00 0x0300 0x0000 0x01FF 0x2000 0xD1 [(0x0301, 0x00), (0x2000, 0x69),
        (0x2001, 0x01)])) (fun t =>
      t.ccr == 0xD0 && t.memByte 0x0301 == 0x01) = true := by decide

theorem test_rora_l34 :
    after (step (machine 0x01 0x00 0x0000 0x0000 0x01FF 0x2000 0xD1 [(0x2000, 0x46)])) (fun t =>
      t.a == 0x80 && t.ccr == 0xD9) = true := by decide

theorem test_rorb_l35 :
    after (step (machine 0x00 0x01 0x0000 0x0000 0x01FF 0x2000 0xD0 [(0x2000, 0x56)])) (fun t =>
      t.b == 0x00 && t.ccr == 0xD7) = true := by decide

theorem test_rora_l36 :
    after (step (machine 0x00 0x00 0x0000 0x0000 0x01FF 0x2000 0xD1 [(0x2000, 0x46)])) (fun t =>
      t.a == 0x80 && t.ccr == 0xDA) = true := by decide

theorem test_ror_l37 :
    after (step (machine 0x00 0x00 0x0000 0x0000 0x01FF 0x2000 0xD0 [(0x0300, 0x02), (0x2000, 0x76),
        (0x2001, 0x03), (0x2002, 0x00)])) (fun t =>
      t.memByte 0x0300 == 0x01 && t.ccr == 0xD0) = true := by decide

theorem test_bset_l38 :
    after (step (machine 0x00 0x00 0x0000 0x0000 0x01FF 0x2000 0xD0 [(0x0040, 0x00), (0x2000, 0x14),
        (0x2001, 0x40), (0x2002, 0x81)])) (fun t =>
      t.ccr == 0xD8 && t.memByte 0x0040 == 0x81) = true := by decide

theorem test_bclr_l41 :
    after (step (machine 0x00 0x00 0x0000 0x0000 0x01FF 0x2000 0xD0 [(0x0040, 0xA5), (0x2000, 0x15),
        (0x2001, 0x40), (0x2002, 0xFF)])) (fun t =>
      t.ccr == 0xD4 && t.memByte 0x0040 == 0x00) = true := by decide

theorem test_bclr_l42 :
    after (step (machine 0x00 0x00 0x0300 0x0000 0x01FF 0x2000 0xD0 [(0x0300, 0xFF), (0x2000, 0x1D),
        (0x2001, 0x00), (0x2002, 0x0F)])) (fun t =>
      t.ccr == 0xD8 && t.memByte 0x0300 == 0xF0) = true := by decide

theorem test_abx_s1 :
    after (step (machine 0x00 0xFF 0x0001 0x0000 0x01FF 0x2000 0xD0 [(0x2000, 0x3A)])) (fun t =>
      t.ix == 0x0100 && t.ccr == 0xD0) = true := by decide

theorem test_aby_s3 :
    after (step (machine 0x00 0x80 0x0000 0x1000 0x01FF 0x2000 0xD0 [(0x2000, 0x18), (0x2001, 0x3A)])) (fun t =>
      t.iy == 0x1080 && t.ccr == 0xD0) = true := by decide

theorem test_cpx_s4 :
    after (step (machine 0x00 0x00 0x1000 0x0000 0x01FF 0x2000 0xD0 [(0x2000, 0x8C), (0x2001, 0x10),
        (0x2002, 0x00)])) (fun t =>
      t.ccr == 0xD4) = true := by decide

theorem test_cpx_s7 :
    after (step (machine 0x00 0x00 0x0002 0x0300 0x01FF 0x2000 0xD0 [(0x0300, 0x00), (0x0301, 0x01),
        (0x2000, 0xCD), (0x2001, 0xAC), (0x2002, 0x00)])) (fun t =>
      t.pc == 0x2003 && t.ccr == 0xD0) = true := by decide

theorem test_cpy_s8 :
    after (step (machine 0x00 0x00 0x0000 0x0300 0x01FF 0x2000 0xD0 [(0x2000, 0x18), (0x2001, 0x8C),
        (0x2002, 0x03), (0x2003, 0x00)])) (fun t =>
      t.ccr == 0xD4) = true := by decide

theorem test_cpy_s9 :
    after (step (machine 0x00 0x00 0x0300 0x0000 0x01FF 0x2000 0xD0 [(0x0300, 0x00), (0x0301, 0x01),
        (0x2000, 0x1A), (0x2001, 0xAC), (0x2002, 0x00)])) (fun t =>
      t.ccr == 0xD9) = true := by decide

theorem test_dex_s11 :
    after (step (machine 0x00 0x00 0x0001 0x0000 0x01FF 0x2000 0xDB [(0x2000, 0x09)])) (fun t =>
      t.ix == 0x0000 && t.ccr == 0xDF) = true := by decide

theorem test_dey_s13 :
    after (step (machine 0x00 0x00 0x0000 0x0100 0x01FF 0x2000 0xD0 [(0x2000, 0x18), (0x2001, 0x09)])) (fun t =>
      t.iy == 0x00FF && t.ccr == 0xD0) = true := by decide

theorem test_inx_s14 :
    after (step (machine 0x00 0x00 0xFFFF 0x0000 0x01FF 0x2000 0xD0 [(0x2000, 0x08)])) (fun t =>
      t.ix == 0x0000 && t.ccr == 0xD4) = true := by decide

theorem test_iny_s15 :
    after (step (machine 0x00 0x00 0x0000 0x7FFF 0x01FF 0x2000 0xD0 [(0x2000, 0x18), (0x2001, 0x08)])) (fun t =>
      t.iy == 0x8000 && t.ccr == 0xD0) = true := by decide

theorem test_des_s16 :
    after (step (machine 0x00 0x00 0x0000 0x0000 0x0000 0x2000 0xD0 [(0x2000, 0x34)])) (fun t =>
      t.sp == 0xFFFF && t.ccr == 0xD0) = true := by decide

theorem test_ins_s17 :
    after (step (machine 0x00 0x00 0x0000 0x0000 0xFFFF 0x2000 0xD0 [(0x2000, 0x31)])) (fun t =>
      t.sp == 0x0000 && t.ccr == 0xD0) = true := by decide

theorem test_lds_s18 :
    after (step (machine 0x00 0x00 0x0000 0x0000 0x0000 0x2000 0xD0 [(0x2000, 0x8E), (0x2001, 0x01),
        (0x2002, 0xFF)])) (fun t =>
      t.sp == 0x01FF && t.ccr == 0xD0) = true := by decide

theorem test_ldx_s20 :
    after (step (machine 0x00 0x00 0x1234 0x0000 0x01FF 0x2000 0xDB [(0x2000, 0xCE), (0x2001, 0x00),
        (0x2002, 0x00)])) (fun t =>
      t.ix == 0x0000 && t.ccr == 0xD5) = true := by decide

theorem test_ldx_s21 :
    after (step (machine 0x00 0x00 0x0000 0x0000 0x01FF 0x2000 0xD0 [(0x0040, 0x12), (0x0041, 0x34),
        (0x2000, 0xDE), (0x2001, 0x40)])) (fun t =>
      t.ix == 0x1234 && t.ccr == 0xD0) = true := by decide

theorem test_ldy_s24 :
    after (step (machine 0x00 0x00 0x0000 0x0000 0x01FF 0x2000 0xD0 [(0x2000, 0x18), (0x2001, 0xCE),
        (0x2002, 0x80), (0x2003, 0x00)])) (fun t =>
      t.iy == 0x8000 && t.ccr == 0xD8) = true := by decide

theorem test_ldy_s25 :
    after (step (machine 0x00 0x00 0x0300 0x0000 0x01FF 0x2000 0xD0 [(0x0304, 0x00), (0x0305, 0x01),
        (0x2000, 0x1A), (0x2001, 0xEE), (0x2002, 0x04)])) (fun t =>
      t.iy == 0x0001 && t.ccr == 0xD0) = true := by decide

theorem test_sts_s27 :
    after (step (machine 0x00 0x00 0x0000 0x0000 0x01FF 0x2000 0xD0 [(0x2000, 0x9F), (0x2001, 0x40)])) (fun t =>
      t.memByte 0x0041 == 0xFF && t.memByte 0x0040 == 0x01) = true := by decide

theorem test_stx_s28 :
    after (step (machine 0x00 0x00 0x8001 0x0000 0x01FF 0x2000 0xD0 [(0x2000, 0xFF), (0x2001, 0x03),
        (0x2002, 0x00)])) (fun t =>
      t.ccr == 0xD8 && t.memByte 0x0301 == 0x01 && t.memByte 0x0300 == 0x80) = true := by decide

theorem test_stx_s29 :
    after (step (machine 0x00 0x00 0x0000 0x0300 0x01FF 0x2000 0xD0 [(0x2000, 0xCD), (0x2001, 0xEF),
        (0x2002, 0x00)])) (fun t =>
      t.ccr == 0xD4 && t.memByte 0x0301 == 0x00 && t.memByte 0x0300 == 0x00) = true := by decide

theorem test_sty_s30 :
    after (step (machine 0x00 0x00 0x0300 0x1234 0x01FF 0x2000 0xD0 [(0x2000, 0x1A), (0x2001, 0xEF),
        (0x2002, 0x00)])) (fun t =>
      t.memByte 0x0301 == 0x34 && t.memByte 0x0300 == 0x12) = true := by decide

theorem test_sty_s31 :
    after (step (machine 0x00 0x00 0x0000 0xFFFF 0x01FF 0x2000 0xD0 [(0x2000, 0x18), (0x2001, 0xDF),
        (0x2002, 0x40)])) (fun t =>
      t.ccr == 0xD8 && t.memByte 0x0041 == 0xFF && t.memByte 0x0040 == 0xFF) = true := by decide

theorem test_pshx_s32 :
    after (step (machine 0x00 0x00 0x1234 0x0000 0x01FF 0x2000 0xD0 [(0x2000, 0x3C)])) (fun t =>
      t.sp == 0x01FD && t.memByte 0x01FF == 0x34 && t.memByte 0x01FE == 0x12) = true := by decide

theorem test_pshy_s33 :
    after (step (machine 0x00 0x00 0x0000 0xABCD 0x01FF 0x2000 0xD0 [(0x2000, 0x18), (0x2001, 0x3C)])) (fun t =>
      t.sp == 0x01FD && t.memByte 0x01FF == 0xCD && t.memByte 0x01FE == 0xAB) = true := by decide

theorem test_pulx_s34 :
    after (step (machine 0x00 0x00 0x0000 0x0000 0x01FD 0x2000 0xD0 [(0x01FE, 0x12), (0x01FF, 0x34),
        (0x2000, 0x38)])) (fun t =>
      t.ix == 0x1234 && t.sp == 0x01FF) = true := by decide

theorem test_puly_s35 :
    after (step (machine 0x00 0x00 0x0000 0x0000 0x01FD 0x2000 0xD0 [(0x01FE, 0xAB), (0x01FF, 0xCD),
        (0x2000, 0x18), (0x2001, 0x38)])) (fun t =>
      t.iy == 0xABCD && t.sp == 0x01FF) = true := by decide

theorem test_tsx_s37 :
    after (step (machine 0x00 0x00 0x0000 0x0000 0x01FF 0x2000 0xD0 [(0x2000, 0x30)])) (fun t =>
      t.ix == 0x0200 && t.ccr == 0xD0) = true := by decide

theorem test_tsx_s38 :
    after (step (machine 0x00 0x00 0x1234 0x0000 0xFFFF 0x2000 0xD0 [(0x2000, 0x30)])) (fun t =>
      t.ix == 0x0000 && t.ccr == 0xD0) = true := by decide

theorem test_tsy_s39 :
    after (step (machine 0x00 0x00 0x0000 0x0000 0x00FF 0x2000 0xD0 [(0x2000, 0x18), (0x2001, 0x30)])) (fun t =>
      t.iy == 0x0100 && t.ccr == 0xD0) = true := by decide

theorem test_txs_s40 :
    after (step (machine 0x00 0x00 0x0200 0x0000 0x0000 0x2000 0xD0 [(0x2000, 0x35)])) (fun t =>
      t.sp == 0x01FF && t.ccr == 0xD0) = true := by decide

theorem test_txs_s41 :
    after (step (machine 0x00 0x00 0x0000 0x0000 0x01FF 0x2000 0xD0 [(0x2000, 0x35)])) (fun t =>
      t.sp == 0xFFFF && t.ccr == 0xD0) = true := by decide

theorem test_tys_s42 :
    after (step (machine 0x00 0x00 0x0000 0x0100 0x01FF 0x2000 0xD0 [(0x2000, 0x18), (0x2001, 0x35)])) (fun t =>
      t.sp == 0x00FF && t.ccr == 0xD0) = true := by decide

theorem test_xgdx_s43 :
    after (step (machine 0x12 0x34 0xABCD 0x0000 0x01FF 0x2000 0xDF [(0x2000, 0x8F)])) (fun t =>
      t.a == 0xAB && t.b == 0xCD && t.ix == 0x1234) = true := by decide

theorem test_xgdy_s44 :
    after (step (machine 0x12 0x34 0x0000 0xABCD 0x01FF 0x2000 0xD0 [(0x2000, 0x18), (0x2001, 0x8F)])) (fun t =>
      t.a == 0xAB && t.b == 0xCD && t.iy == 0x1234) = true := by decide

theorem test_clra_t1 :
    after (step (machine 0xFF 0x00 0x0000 0x0000 0x01FF 0x2000 0xDB [(0x2000, 0x4F)])) (fun t =>
      t.a == 0x00 && t.ccr == 0xD4) = true := by decide

theorem test_clrb_t2 :
    after (step (machine 0x00 0x01 0x0000 0x0000 0x01FF 0x2000 0xD0 [(0x2000, 0x5F)])) (fun t =>
      t.b == 0x00 && t.ccr == 0xD4) = true := by decide

theorem test_ldaa_t3 :
    after (step (machine 0x55 0x00 0x0000 0x0000 0x01FF 0x2000 0xDB [(0x2000, 0x86), (0x2001, 0x00)])) (fun t =>
      t.a == 0x00 && t.ccr == 0xD5) = true := by decide

theorem test_ldab_t6 :
    after (step (machine 0x00 0x00 0x0001 0x0000 0x01FF 0x2000 0xD0 [(0x0100, 0x01), (0x2000, 0xE6),
        (0x2001, 0xFF)])) (fun t =>
      t.b == 0x01 && t.ccr == 0xD0) = true := by decide

theorem test_ldd_t9 :
    after (step (machine 0x12 0x34 0x0000 0x0000 0x01FF 0x2000 0xD0 [(0x0300, 0x00), (0x0301, 0x00),
        (0x2000, 0xFC), (0x2001, 0x03), (0x2002, 0x00)])) (fun t =>
      t.a == 0x00 && t.b == 0x00 && t.ccr == 0xD4) = true := by decide

theorem test_clr_t11 :
    after (step (machine 0x00 0x00 0x0000 0x0000 0x01FF 0x2000 0xDB [(0x0300, 0x5A), (0x2000, 0x7F),
        (0x2001, 0x03), (0x2002, 0x00)])) (fun t =>
      t.ccr == 0xD4 && t.memByte 0x0300 == 0x00) = true := by decide

theorem test_staa_t13 :
    after (step (machine 0x00 0x00 0x0000 0x0000 0x01FF 0x2000 0xDA [(0x2000, 0x97), (0x2001, 0x40)])) (fun t =>
      t.ccr == 0xD4 && t.memByte 0x0040 == 0x00) = true := by decide

theorem test_stab_t14 :
    after (step (machine 0x00 0x80 0x0000 0x0000 0x01FF 0x2000 0xD1 [(0x2000, 0xF7), (0x2001, 0x03),
        (0x2002, 0x00)])) (fun t =>
      t.ccr == 0xD9 && t.memByte 0x0300 == 0x80) = true := by decide

theorem test_std_t17 :
    after (step (machine 0x00 0x00 0x0000 0x0000 0x01FF 0x2000 0xD0 [(0x2000, 0xDD), (0x2001, 0x40)])) (fun t =>
      t.ccr == 0xD4 && t.memByte 0x0041 == 0x00 && t.memByte 0x0040 == 0x00) = true := by decide

theorem test_psha_t18 :
    after (step (machine 0x5A 0x00 0x0000 0x0000 0x01FF 0x2000 0xD0 [(0x2000, 0x36)])) (fun t =>
      t.sp == 0x01FE && t.memByte 0x01FF == 0x5A) = true := by decide

theorem test_pshb_t19 :
    after (step (machine 0x00 0xA5 0x0000 0x0000 0x0000 0x2000 0xD0 [(0x2000, 0x37)])) (fun t =>
      t.sp == 0xFFFF && t.memByte 0x0000 == 0xA5) = true := by decide

theorem test_pula_t20 :
    after (step (machine 0x00 0x00 0x0000 0x0000 0x01FE 0x2000 0xD4 [(0x01FF, 0x80), (0x2000, 0x32)])) (fun t =>
      t.a == 0x80 && t.sp == 0x01FF) = true := by decide

theorem test_pulb_t21 :
    after (step (machine 0x00 0x00 0x0000 0x0000 0xFFFF 0x2000 0xD0 [(0x0000, 0x11), (0x2000, 0x33)])) (fun t =>
      t.b == 0x11 && t.sp == 0x0000) = true := by decide

theorem test_tab_t22 :
    after (step (machine 0x80 0x01 0x0000 0x0000 0x01FF 0x2000 0xD2 [(0x2000, 0x16)])) (fun t =>
      t.b == 0x80 && t.ccr == 0xD8) = true := by decide

theorem test_tba_t23 :
    after (step (machine 0x80 0x00 0x0000 0x0000 0x01FF 0x2000 0xD0 [(0x2000, 0x17)])) (fun t =>
      t.a == 0x00 && t.ccr == 0xD4) = true := by decide

/-- DAA's condition codes with V given (40_arithmetic.md R146): 0x9A sets Z and C; 0x81 with H = 1 sets N. -/
theorem test_daa_flags : (decimalAdjust 0x9A 0xD0 false).ccr = 0xD5 ∧ (decimalAdjust 0x81 0xF0 true).ccr = 0xFA := by
  decide

/-- The rows of the branch-condition table (95_test_vectors.md E1) with N = V = 1, Z = C = 0, from `pc_next` 0x2002. -/
theorem test_branches_taken :
    [Instr.bra 0x10, .bhi 0x10, .bcc 0x10, .bne 0x10, .bvs 0x10, .bmi 0x10, .bge 0x10, .bgt 0x10].all (fun i =>
      after (exec i (machine 0 0 0 0 0x01FF 0x2002 0xDA [])) (fun t => t.pc == 0x2012)) = true := by decide

theorem test_branches_not_taken :
    [Instr.brn 0x10, .bls 0x10, .bcs 0x10, .beq 0x10, .bvc 0x10, .bpl 0x10, .blt 0x10, .ble 0x10].all (fun i =>
      after (exec i (machine 0 0 0 0 0x01FF 0x2002 0xDA [])) (fun t => t.pc == 0x2002)) = true := by decide

/-! ## Interrupts, traps, reset and the run states: section 3 of 95_test_vectors.md -/

/-- The machine of vectors X1 to X5. -/
def interrupted (ccr : Byte) (lines : Lines) (mem : Memory) : State :=
  { machine 0x11 0x22 0x3344 0x5566 0x01FF 0x2345 ccr mem with lines := lines }

/-- The nine stacked bytes from the lowest address up. -/
def stacked (s : State) : List Byte := s.memBytes 0x01F7 9

theorem test_irq_x1 :
    after (step (interrupted 0xC1 { Lines.quiet with maskable := [.irq] } [(0xFFF2, 0x50), (0xFFF3, 0x00)])) (fun t =>
      stacked t == [0xC1, 0x22, 0x11, 0x33, 0x44, 0x55, 0x66, 0x23, 0x45] && t.sp == 0x01F6 && t.ccr == 0xD1 &&
        t.pc == 0x5000) = true := by decide

theorem test_xirq_x2 :
    after (step (interrupted 0x91 { Lines.quiet with xirq := true } [(0xFFF4, 0x60), (0xFFF5, 0x00)])) (fun t =>
      t.ccr == 0xD1 && t.pc == 0x6000 && t.memByte 0x01F7 == 0x91) = true := by decide

theorem test_masked_irq_x3 :
    after (step (interrupted 0xD0 { Lines.quiet with maskable := [.irq] } [(0x2345, 0x01)])) (fun t =>
      t.pc == 0x2346 && t.lines.maskable == [.irq]) = true := by decide

theorem test_masked_xirq_x4 :
    after (step (interrupted 0xD0 { Lines.quiet with xirq := true } [(0x2345, 0x01)])) (fun t => t.pc == 0x2346) =
      true := by decide

theorem test_illegal_opcode_x5 :
    after (step (interrupted 0x80 Lines.quiet [(0x2345, 0x41), (0xFFF8, 0x60), (0xFFF9, 0x00)])) (fun t =>
      stacked t == [0x80, 0x22, 0x11, 0x33, 0x44, 0x55, 0x66, 0x23, 0x45] && t.ccr == 0x90 && t.pc == 0x6000) =
      true := by decide

theorem test_illegal_after_prebyte_x6_x7 :
    [0x86, 0x18].all (fun op =>
      after (step (interrupted 0x80 Lines.quiet [(0x2345, 0x18), (0x2346, op), (0xFFF8, 0x60), (0xFFF9, 0x00)]))
        (fun t => t.memByte 0x01FF == 0x45 && t.pc == 0x6000)) = true := by decide

/-- The reset vectors (70_reset_and_hazards.md R381): the word stands in ROM, which a reset keeps. -/
def resetting (mode : Mode) (cause : ResetCause) (cell : Nat) : State :=
  { State.reset with
    mem := [(cell, 0xE0), (cell + 1, 0x00)]
    lines := { Lines.quiet with reset := some cause }
    cfg := { Config.initial with mode := mode, regions := [⟨0x0000, 0x7FFF, .ram⟩, ⟨0x8000, 0xFFFF, .rom⟩] } }

theorem test_reset_x9 :
    [(Mode.normal, ResetCause.powerOn, 0xFFFE), (.normal, .pin, 0xFFFE), (.normal, .clockMonitor, 0xFFFC),
      (.normal, .cop, 0xFFFA), (.testOrBoot, .powerOn, 0xBFFE), (.testOrBoot, .clockMonitor, 0xBFFC),
      (.testOrBoot, .cop, 0xBFFA)].all (fun p =>
        after (step (resetting p.1 p.2.1 p.2.2)) (fun t => t.pc == 0xE000 && t.lines.reset == none)) = true := by
  decide

theorem test_irq_test_mode_x10 :
    after (step { interrupted 0xC1 { Lines.quiet with maskable := [.irq] } [(0xBFF2, 0x50), (0xBFF3, 0x00)] with
      cfg := { Config.initial with mode := .testOrBoot } }) (fun t => t.pc == 0x5000) = true := by decide

/-- 60_exceptions.md R352(b): the wake-up from WAI stacks nothing. -/
theorem test_wai_wakes :
    after (step { interrupted 0xC1 { Lines.quiet with maskable := [.spi] } [(0xFFD8, 0x50), (0xFFD9, 0x00)] with
      run := .waiting }) (fun t => t.sp == 0x01FF && t.pc == 0x5000 && t.run == .running) = true := by decide

/-- 60_exceptions.md R352(c): XIRQ with X = 1 ends STOP without an interrupt; a timer request does not end it. -/
theorem test_stop_ends :
    after (step { interrupted 0x40 { Lines.quiet with xirq := true } [] with run := .stopped }) (fun t =>
      t.run == .running && t.pc == 0x2345) = true ∧
    after (step { interrupted 0x00 { Lines.quiet with maskable := [.realTime] } [] with run := .stopped }) (fun t =>
      t.run == .stopped) = true := by decide

/-- 60_exceptions.md R334 (D21): a request may be held off at the boundary after CLI, and only there. -/
theorem test_cli_boundary :
    let s := interrupted 0xC0 { Lines.quiet with maskable := [.irq], holdOff := true }
      [(0x2345, 0x01), (0xFFF2, 0x50), (0xFFF3, 0x00)]
    after (step { s with lateClear := true }) (fun t => t.pc == 0x2346 && !t.lateClear) = true ∧
      after (step s) (fun t => t.pc == 0x5000) = true := by decide

/-! ## Memory -/

/-- RAM below 0x0100, ROM from 0xE000, the I/O block at 0x1000, nothing elsewhere; ROM holds one byte. -/
def mapped : State :=
  { State.reset with
    mem := [(0x0040, 0x11), (0xE000, 0x22)]
    cfg := { Config.initial with regions := [⟨0x0000, 0x00FF, .ram⟩, ⟨0xE000, 0xFFFF, .rom⟩] } }

/-- 20_memory.md R62, R63, R66. -/
theorem test_kinds :
    mapped.kind 0x00FF = .ram ∧ mapped.kind 0x0100 = .nothing ∧ mapped.kind 0x0FFF = .nothing ∧
      mapped.kind 0x1000 = .io ∧ mapped.kind 0x103F = .io ∧ mapped.kind 0x1040 = .nothing ∧
      mapped.kind 0xE000 = .rom ∧ (store 0xE000 0x33 mapped).memByte 0xE000 = 0x22 ∧
      (store 0x103F 0x33 mapped).io = [.write 0x103F 0x33] ∧ (store 0x0041 0x33 mapped).memByte 0x0041 = 0x33 ∧
      (touch16 0x100F mapped).io = [.read 0x1010, .read 0x100F] ∧ (touch 0x0100 mapped).draws = 1 := by decide

/-- 20_memory.md R65: a word at 0xFFFF has its low byte at 0x0000 (D4). -/
theorem test_word_wraps :
    peek16 0xFFFF (machine 0 0 0 0 0 0 0 [(0x0000, 0x34), (0xFFFF, 0x12)]) = 0x1234 := by decide

/-! ## Witnesses: the hypotheses of the statements can be met, each clause at a boundary of its range -/

/-- NEG 0xFF,X at the top of memory. -/
def negAtTop : State :=
  machine 0 0 0x0100 0 0x01FF 0xFFFF 0xD0 [(0x0000, 0xFF), (0x01FF, 0x80), (0xFFFF, 0x60)]

theorem witness_DecodeReadsBackEveryEncoding :
    (Instr.neg (.indx 0xFF)).wf = true ∧ otherMap.wf = true ∧
      encodeWith otherMap (.ldaa (.mem (.indy 0xFF))) = some [0x18, 0x86, 0xFF] := by decide

theorem witness_DecodedBytesAreTheEncoding :
    decode defaultOpcodeMap [0x18, 0x1F, 0xFF, 0x80, 0xFE, 0x01] = .ok (.brclr (.indy 0xFF) 0x80 0xFE, [0x01]) ∧
      decode otherMap [0x18, 0x86, 0xFF] = .ok (.ldaa (.mem (.indy 0xFF)), []) := by decide

theorem witness_IllegalCodesAreTheListedOnes :
    decodesTo ([0x01], .nop) = true ∧ refuses [0x00, 0, 0, 0, 0] = true ∧ refuses [0x18, 0x00, 0, 0, 0] = true ∧
      refuses [0x1A, 0xFF, 0, 0, 0] = true ∧ refuses [0xCD, 0xFF, 0, 0, 0] = true := by decide

theorem witness_InstructionLengthGivesTheNextAddress :
    decode defaultOpcodeMap (fetchBytes negAtTop) = .ok (.neg (.indx 0xFF), []) ∧ (fetched negAtTop).pc = 0x0001 ∧
      (let s := machine 0 0 0 0 0 0xFFFD 0 [(0x0000, 0x80), (0x0001, 0xFE), (0xFFFD, 0x18), (0xFFFE, 0x1E), (0xFFFF, 0xFF)]
       decode defaultOpcodeMap (fetchBytes s) = .ok (.brset (.indy 0xFF) 0x80 0xFE, []) ∧ (fetched s).pc = 0x0002) := by
  decide

theorem witness_StepRunsTheDecodedInstruction :
    negAtTop.executes ∧
      decode negAtTop.cfg.opcodeMap (fetchBytes negAtTop.atBoundary) = .ok (.neg (.indx 0xFF), []) :=
  ⟨by unfold State.executes; decide, rfl⟩

theorem witness_StepRunsTheInstructionInMemory :
    negAtTop.executes ∧ decode negAtTop.cfg.opcodeMap [0x60, 0xFF] = .ok (.neg (.indx 0xFF), []) ∧
      negAtTop.inMemory 0xFFFF 2 = true ∧ negAtTop.memBytes 0xFFFF 2 = [0x60, 0xFF] :=
  ⟨by unfold State.executes; decide, by decide, by decide, by decide⟩

/-- The invariant holds of a stopped CPU with S = 0 and of a running one after a CLI, and both step. -/
theorem witness_StepKeepsTheInvariant :
    (let s := { interrupted 0x50 Lines.quiet [] with run := .stopped }
     s.Inv ∧ step s = .next s.atBoundary) ∧
    (let s := { interrupted 0xC0 Lines.quiet [(0x2345, 0x01)] with lateClear := true }
     s.Inv ∧ step s = exec .nop (fetched s.atBoundary)) :=
  ⟨⟨⟨by decide, by decide, by decide⟩, rfl⟩, ⟨by decide, by decide, by decide⟩, rfl⟩

theorem witness_StepKeepsRomAndConfiguration :
    mapped.kind 0xE000 ≠ .ram ∧ mapped.kind 0x0100 ≠ .ram ∧ after (step { mapped with pc := 0x0040, mem := [(0x0040, 0x01)] }) (fun t => t.pc == 0x0041) = true := by decide

theorem witness_TakingARequestDoesNotWithdrawIt :
    (resetting .normal .cop 0xFFFA).event = .reset .cop ∧ after (step (resetting .normal .cop 0xFFFA)) (fun t => t.pc == 0xE000) = true ∧
      (interrupted 0xC0 { Lines.quiet with maskable := [.sci] } []).event = .interrupt 0xFFD6 false ∧
      after (step (interrupted 0xC0 { Lines.quiet with maskable := [.sci] } [])) (fun t => t.flag .i) = true := by decide

/-- SEI from I = 0, TAP from X = 1 and S = 1: each mask bit does change. -/
theorem witness_MaskBitsChangeOnlyByTheListedInstructions :
    after (exec .sei (machine 0 0 0 0 0 0 0x00 [])) (fun t => t.flag .i) = true ∧
      after (exec .tap (machine 0x00 0 0 0 0 0 0xD0 [])) (fun t => !t.flag .x && !t.flag .s) = true := by decide

theorem witness_XMaskIsSetOnlyByHardware :
    (interrupted 0x90 { Lines.quiet with xirq := true } []).event = .interrupt xirqVector true ∧
      (interrupted 0x90 { Lines.quiet with xirq := true } []).flag .x = false ∧
      (resetting .normal .pin 0xFFFE).event = .reset .pin ∧
      after (step (machine 0x80 0 0 0 0 0x2000 0xD0 [(0x2000, 0x06)])) (fun t => !t.flag .x) = true ∧
      after (step (machine 0 0 0 0 0x01FF 0x2000 0xD0 [(0x0200, 0x80), (0x2000, 0x3B)])) (fun t => !t.flag .x) =
        true := by decide

theorem witness_StopDisableGuardsStop :
    State.reset.flag .s = true ∧ (machine 0 0 0 0 0 0 0x50 []).flag .s = false ∧
      (resetting .normal .powerOn 0xFFFE).event = .reset .powerOn ∧
      after (step (machine 0x40 0 0 0 0 0x2000 0xD0 [(0x2000, 0x06)])) (fun t => !t.flag .s) = true := by decide

theorem witness_EntrySequenceStacksAndVectors :
    (interrupted 0xC1 { Lines.quiet with maskable := [.irq] } []).event = .interrupt 0xFFF2 false ∧
      (let s := interrupted 0x80 Lines.quiet [(0x2345, 0x18), (0x2346, 0x18)]
       s.executes ∧ decode s.cfg.opcodeMap (fetchBytes s.atBoundary) = .error (.illegalOpcode (some 0x18) 0x18)) :=
  ⟨by decide, by unfold State.executes; decide, rfl⟩

theorem witness_RunningBoundaryFollowsTheRecognitionOrder :
    (resetting .normal .cop 0xFFFA).run = .running ∧
      (sample (resetting .normal .cop 0xFFFA)).lines.reset = some .cop ∧
      (let s := interrupted 0x80 { Lines.quiet with xirq := true, maskable := [.irq] } []
       s.run = .running ∧ (sample s).lines.reset = none ∧ (sample s).lines.xirq = true ∧ s.flag .x = false ∧
         s.event = .interrupt 0xFFF4 true) ∧
      (let s := { interrupted 0xC0 { Lines.quiet with xirq := true, maskable := [.sci] } [] with lateClear := true }
       s.run = .running ∧ (sample s).lines.reset = none ∧ s.flag .x = true ∧ s.flag .i = false ∧
         (sample s).lines.maskable = [.sci] ∧ s.event = .interrupt 0xFFD6 false) := by decide

theorem witness_VectorsStandAtTheListedAddresses :
    0x4000 ≤ (0x4000#16).toNat ∧ vec .testOrBoot 0x4000 = 0x0000 ∧ vec .testOrBoot 0xFFFF = 0xBFFF := by decide

theorem witness_EntryThenReturnRestoresTheContext :
    (machine 1 2 3 4 0x0003 5 0x90 []).stackRoom 9 = true ∧ (machine 1 2 3 4 0x00FF 5 0x90 []).stackRoom 9 = true ∧
      (machine 1 2 3 4 0x1008 5 0x90 []).stackRoom 9 = false := by decide

/-- A waiting CPU, its XIRQ, its maskable request and its wait. -/
theorem witness_WaitEndsWithoutASecondStacking :
    (let s := { interrupted 0x80 { Lines.quiet with xirq := true } [] with run := .waiting }
     s.run = .waiting ∧ (sample s).lines.reset = none ∧ (sample s).lines.xirq = true ∧ s.flag .x = false ∧
       s.event = .wake 0xFFF4 true) ∧
    (let s := { interrupted 0xC0 { Lines.quiet with xirq := true, maskable := [.sci] } [] with run := .waiting }
     s.run = .waiting ∧ (sample s).lines.reset = none ∧ s.flag .x = true ∧ s.flag .i = false ∧
       (sample s).lines.maskable = [.sci] ∧ s.event = .wake 0xFFD6 false) ∧
    (let s := { interrupted 0xD0 { Lines.quiet with maskable := [.sci] } [] with run := .waiting }
     s.run = .waiting ∧ (sample s).lines.reset = none ∧ (sample s).lines.xirq = false ∧ s.flag .i = true ∧
       s.event = .idle) := by decide

/-- A stopped CPU and the four things its lines can bring. -/
theorem witness_StopEndsAsTheSpecDecides :
    (let s := { interrupted 0x10 { Lines.quiet with xirq := true } [] with run := .stopped }
     s.run = .stopped ∧ (sample s).lines.reset = none ∧ (sample s).lines.xirq = true ∧ s.flag .x = false ∧
       s.event = .interrupt 0xFFF4 true) ∧
    (let s := { interrupted 0x40 { Lines.quiet with xirq := true, maskable := [.irq] } [] with run := .stopped }
     s.run = .stopped ∧ (sample s).lines.xirq = true ∧ s.flag .x = true ∧ s.event = .resume) ∧
    (let s := { interrupted 0x00 { Lines.quiet with maskable := [.spi, .irq] } [] with run := .stopped }
     s.run = .stopped ∧ (sample s).lines.xirq = false ∧ s.flag .i = false ∧ .irq ∈ (sample s).lines.maskable ∧
       s.event = .interrupt 0xFFF2 false) ∧
    (let s := { interrupted 0x10 { Lines.quiet with maskable := [.irq] } [] with run := .stopped }
     s.run = .stopped ∧ (sample s).lines.xirq = false ∧ s.flag .i = true ∧ s.event = .idle) := by decide

theorem witness_ResetLoadsOneOfSixVectors :
    (resetting .testOrBoot .cop 0xBFFA).event = .reset .cop ∧
      (resetting .testOrBoot .cop 0xBFFA).inMemory (resetCell .testOrBoot .cop) 2 = true ∧
      (resetting .normal .powerOn 0xFFFE).inMemory (resetCell .normal .powerOn) 2 = true := by decide

theorem witness_ResetForcesTheMasksAndDrawsTheRest :
    (let s := resetting .normal .pin 0xFFFE
     s.event = .reset .pin ∧ s.kind 0x8000 ≠ .ram ∧ s.kind 0x7FFF = .ram ∧ s.cfg.ramRetained = false) ∧
    (let s := { resetting .normal .pin 0xFFFE with cfg := { Config.initial with ramRetained := true } }
     s.event = .reset .pin ∧ s.kind 0x7FFF = .ram ∧ s.cfg.ramRetained = true ∧ ResetCause.pin ≠ .powerOn) ∧
    (let s := { resetting .normal .powerOn 0xFFFE with cfg := { Config.initial with ramRetained := true } }
     s.event = .reset .powerOn ∧ s.kind 0x7FFF = .ram) := by decide

theorem witness_StoreReachesItsAddressAlone :
    mapped.kind 0x00FF = .ram ∧ mapped.kind 0x103F = .io ∧ mapped.kind 0xE000 = .rom ∧ mapped.kind 0xDFFF = .nothing ∧
      mapped.isMemory 0xFFFF = true ∧ (0x0000#16) ≠ 0x00FF := by decide

theorem witness_WordsAreHighByteFirst :
    mapped.inMemory 0xFFFF 2 = true ∧ mapped.kind 0x00FE = .ram ∧ mapped.kind (0x00FE + 1) = .ram ∧
      mapped.kind 0x103E = .io ∧ mapped.kind (0x103E + 1) = .io := by decide

theorem witness_OperandsAreReadAtTheEffectiveAddress :
    mapped.isMemory (effAddr (.dir 0xFF) mapped) = true ∧ mapped.inMemory (effAddr (.ext 0xFFFF) mapped) 2 = true ∧
      effAddr (.indx 0xFF) (machine 0 0 0xFFFF 0 0 0 0 []) = 0x00FE := by decide

theorem witness_PullUndoesPush :
    State.reset.kind State.reset.sp = .ram ∧ State.reset.stackRoom 2 = true ∧
      (machine 0 0 0 0 0x1040 0 0 []).stackRoom 2 = false := by decide

theorem witness_DecimalAdjustGivesTheDecimalSum :
    isBcd 0x99 = true ∧ isBcd 0x00 = true ∧ isBcd 0x9A = false ∧ isBcd 0xA0 = false ∧
      (let s := machine 0x99 0x61 0x0100 0 0 0 0xD1 [(0x01FF, 0x61)]
       isBcd s.a = true ∧ isBcd s.b = true ∧ isBcd (operand8 (.imm 0x61) s) = true ∧
         isBcd (operand8 (.mem (.indx 0xFF)) s) = true) := by decide

theorem witness_ReturnUndoesCall :
    State.reset.stackRoom 2 = true ∧ Instr.jsr (.indy 0xFF) ∈ [Instr.bsr 0x80, .jsr (.indy 0xFF)] ∧
      Instr.bsr 0x80 ∈ [Instr.bsr 0x80, .jsr (.indy 0xFF)] := by decide

end Sys2Proof.Tests
end

/-!
PROOFS. The flags column (10_state.md R38) and D as A and B together (R22).

An instruction's flags are those its condition codes hold afterwards, so the flags column is proved in three layers: what
the column says of a CCR before and after, for each writer of flags and then for each flag computation of Machine/Flags;
what each shape of instruction does to the CCR; and one case for each row of the table.
-/

namespace Sys2Proof.Machine

/-! ## D is A:B -/

/-- Settles O32: D is joined from A and B, and halved into them. -/
theorem doubleAccumulatorIsBothHalves : Obligations.DoubleAccumulatorIsBothHalves := by
  intro s w v
  refine ⟨?_, ?_, ?_, ?_⟩
  · rw [State.reg16_d, join_toNat]
  · rw [← join_toNat, State.setReg16_d_a, State.setReg16_d_b, join_hiByte_loByte]
  · rw [State.reg16_d, join_toNat, State.setAcc_a_a, State.setAcc_a_b]
  · rw [State.reg16_d, join_toNat, State.setAcc_b_a, State.setAcc_b_b]

/-! ## What a flags column says of the condition codes before and after -/

/-- The five marks of a flags column come true from one CCR value to another. -/
def FlagColumn.Holds (col : FlagColumn) (before after : Byte) : Prop :=
  col.h.Says (getFlag before .h) (getFlag after .h) ∧ col.n.Says (getFlag before .n) (getFlag after .n) ∧
    col.z.Says (getFlag before .z) (getFlag after .z) ∧ col.v.Says (getFlag before .v) (getFlag after .v) ∧
    col.c.Says (getFlag before .c) (getFlag after .c)

/-! ### The writers of flags: the flags they write are as marked, the others are kept -/

section Writers

variable {c : Byte} {mn mz mv mc : FlagMark} {bn bz bv bc : Bool}

theorem kept_column {d : Byte} (h : d = c) : FlagColumn.Holds ⟨.kept, .kept, .kept, .kept, .kept⟩ c d := by
  subst h
  exact ⟨rfl, rfl, rfl, rfl, rfl⟩

theorem computed_column (c d : Byte) :
    FlagColumn.Holds ⟨.computed, .computed, .computed, .computed, .computed⟩ c d :=
  ⟨trivial, trivial, trivial, trivial, trivial⟩

theorem putFlag_i_column (c : Byte) (b : Bool) :
    FlagColumn.Holds ⟨.kept, .kept, .kept, .kept, .kept⟩ c (putFlag c .i b) := by
  simp [FlagColumn.Holds, FlagMark.Says]

theorem putFlag_v_column (hv : mv.Says (getFlag c .v) bv) :
    FlagColumn.Holds ⟨.kept, .kept, .kept, mv, .kept⟩ c (putFlag c .v bv) := by
  simpa [FlagColumn.Holds, FlagMark.Says] using hv

theorem putFlag_c_column (hc : mc.Says (getFlag c .c) bc) :
    FlagColumn.Holds ⟨.kept, .kept, .kept, .kept, mc⟩ c (putFlag c .c bc) := by
  simpa [FlagColumn.Holds, FlagMark.Says] using hc

theorem putZ_column (hz : mz.Says (getFlag c .z) bz) :
    FlagColumn.Holds ⟨.kept, .kept, mz, .kept, .kept⟩ c (putZ c bz) := by
  simpa [FlagColumn.Holds, FlagMark.Says] using hz

theorem putZVC_column (hz : mz.Says (getFlag c .z) bz) (hv : mv.Says (getFlag c .v) bv)
    (hc : mc.Says (getFlag c .c) bc) : FlagColumn.Holds ⟨.kept, .kept, mz, mv, mc⟩ c (putZVC c bz bv bc) := by
  simpa [FlagColumn.Holds, FlagMark.Says] using ⟨hz, hv, hc⟩

theorem putNZV_column (hn : mn.Says (getFlag c .n) bn) (hz : mz.Says (getFlag c .z) bz)
    (hv : mv.Says (getFlag c .v) bv) : FlagColumn.Holds ⟨.kept, mn, mz, mv, .kept⟩ c (putNZV c bn bz bv) := by
  simpa [FlagColumn.Holds, FlagMark.Says] using ⟨hn, hz, hv⟩

theorem putNZVC_column (hn : mn.Says (getFlag c .n) bn) (hz : mz.Says (getFlag c .z) bz)
    (hv : mv.Says (getFlag c .v) bv) (hc : mc.Says (getFlag c .c) bc) :
    FlagColumn.Holds ⟨.kept, mn, mz, mv, mc⟩ c (putNZVC c bn bz bv bc) := by
  simpa [FlagColumn.Holds, FlagMark.Says] using ⟨hn, hz, hv, hc⟩

end Writers

/-! ### The flag computations of Machine/Flags, each with the marks of its rows -/

section Computations

variable (c : Byte)

theorem sub8_column (x y : Byte) (bin : Bool) :
    FlagColumn.Holds ⟨.kept, .computed, .computed, .computed, .computed⟩ c (sub8 x y bin c).ccr :=
  putNZVC_column trivial trivial trivial trivial

theorem add16_column (x y : Word) :
    FlagColumn.Holds ⟨.kept, .computed, .computed, .computed, .computed⟩ c (add16 x y c).ccr :=
  putNZVC_column trivial trivial trivial trivial

theorem sub16_column (x y : Word) :
    FlagColumn.Holds ⟨.kept, .computed, .computed, .computed, .computed⟩ c (sub16 x y c).ccr :=
  putNZVC_column trivial trivial trivial trivial

theorem nz8_column (r : Byte) : FlagColumn.Holds ⟨.kept, .computed, .computed, .zero, .kept⟩ c (nz8 r c) :=
  putNZV_column trivial trivial rfl

theorem nz16_column (r : Word) : FlagColumn.Holds ⟨.kept, .computed, .computed, .zero, .kept⟩ c (nz16 r c) :=
  putNZV_column trivial trivial rfl

theorem decrement8_column (x : Byte) :
    FlagColumn.Holds ⟨.kept, .computed, .computed, .computed, .kept⟩ c (decrement8 x c).ccr :=
  putNZV_column trivial trivial trivial

theorem increment8_column (x : Byte) :
    FlagColumn.Holds ⟨.kept, .computed, .computed, .computed, .kept⟩ c (increment8 x c).ccr :=
  putNZV_column trivial trivial trivial

theorem test8_column (x : Byte) : FlagColumn.Holds ⟨.kept, .computed, .computed, .zero, .zero⟩ c (test8 x c) :=
  putNZVC_column trivial trivial rfl rfl

theorem clearFlags_column : FlagColumn.Holds ⟨.kept, .zero, .one, .zero, .zero⟩ c (clearFlags c) :=
  putNZVC_column rfl rfl rfl rfl

theorem complement8_column (x : Byte) :
    FlagColumn.Holds ⟨.kept, .computed, .computed, .zero, .one⟩ c (complement8 x c).ccr := by
  obtain ⟨hh, -, -, hv, -⟩ := nz8_column c (x ^^^ 0xFF#8)
  simpa [FlagColumn.Holds, FlagMark.Says, complement8] using ⟨hh, hv⟩

theorem bitClear8_column (mm x : Byte) :
    FlagColumn.Holds ⟨.kept, .computed, .computed, .zero, .kept⟩ c (bitClear8 mm x c).ccr :=
  nz8_column c _

theorem bitSet8_column (mm x : Byte) :
    FlagColumn.Holds ⟨.kept, .computed, .computed, .zero, .kept⟩ c (bitSet8 mm x c).ccr :=
  nz8_column c _

theorem shifted8_column (r : Byte) (out : Bool) :
    FlagColumn.Holds ⟨.kept, .computed, .computed, .computed, .computed⟩ c (shifted8 r out c).ccr :=
  putNZVC_column trivial trivial trivial trivial

theorem shifted16_column (r : Word) (out : Bool) :
    FlagColumn.Holds ⟨.kept, .computed, .computed, .computed, .computed⟩ c (shifted16 r out c).ccr :=
  putNZVC_column trivial trivial trivial trivial

/-- A 0 enters at bit 7, so N is cleared (41_bitwise.md R199 to R201). -/
theorem shiftRight8_column (x : Byte) :
    FlagColumn.Holds ⟨.kept, .zero, .computed, .computed, .computed⟩ c (shiftRight8 x c).ccr :=
  have hn : (x >>> 1).msb = false := by simp
  putNZVC_column hn trivial trivial trivial

/-- A 0 enters at bit 15, so N is cleared (41_bitwise.md R202). -/
theorem shiftRight16_column (x : Word) :
    FlagColumn.Holds ⟨.kept, .zero, .computed, .computed, .computed⟩ c (shiftRight16 x c).ccr :=
  have hn : (x >>> 1).msb = false := by simp
  putNZVC_column hn trivial trivial trivial

theorem decimalAdjust_column (x : Byte) (v : Bool) :
    FlagColumn.Holds ⟨.kept, .computed, .computed, .free, .computed⟩ c (decimalAdjust x c v).ccr :=
  putNZVC_column trivial trivial trivial trivial

theorem multiply_column (x y : Byte) :
    FlagColumn.Holds ⟨.kept, .kept, .kept, .kept, .computed⟩ c (multiply x y c).ccr :=
  putFlag_c_column trivial

theorem integerDivide_column (n d free : Word) :
    FlagColumn.Holds ⟨.kept, .kept, .computed, .zero, .computed⟩ c (integerDivide n d free c).ccr := by
  unfold integerDivide
  split
  · exact putZVC_column trivial rfl trivial
  · exact putZVC_column trivial rfl trivial

theorem fractionalDivide_column (n d free : Word) :
    FlagColumn.Holds ⟨.kept, .kept, .computed, .computed, .computed⟩ c (fractionalDivide n d free c).ccr := by
  unfold fractionalDivide
  split
  · exact putZVC_column trivial trivial trivial
  · split
    · exact putZVC_column trivial trivial trivial
    · exact putZVC_column trivial trivial trivial

end Computations

/-! ## What the remaining shapes of instruction do to the condition codes -/

section Shapes

variable (s : State)

@[simp] theorem pushReg_ccr (r : Reg16) : (pushReg r s).ccr = s.ccr := pushWord_ccr s _

@[simp] theorem pullReg_ccr (r : Reg16) : (pullReg r s).ccr = s.ccr := by simp [pullReg]

@[simp] theorem exchangeD_ccr (r : Reg16) : (exchangeD r s).ccr = s.ccr := by simp [exchangeD]

theorem indexStep_column (r : Reg16) (amount : Word) :
    FlagColumn.Holds ⟨.kept, .kept, .computed, .kept, .kept⟩ s.ccr (indexStep r amount s).ccr :=
  putZ_column (bz := s.reg16 r + amount == 0#16) trivial

/-- RTI loads the CCR from the byte above SP (44_jump_branch.md R304). -/
theorem returnFromInterrupt_ccr : (returnFromInterrupt s).ccr = loadCcr s.ccr (peek (s.sp + 1) s) := by
  obtain ⟨c, _, _, _, _, _, _, _, _, hread, hrti⟩ :=
    returnFromInterrupt_withRegisters s s.a s.b s.ix s.iy s.sp s.pc s.ccr
  have hc : peek (s.sp + 1) s = c := (List.cons.inj hread).1
  rw [withRegisters_self] at hrti
  rw [hrti, hc]
  rfl

/-- A read-modify-write instruction leaves the condition codes of its operation. -/
theorem readModifyWrite_column {col : FlagColumn} {f : Byte → Byte → Res8}
    (hf : ∀ c x, col.Holds c (f x c).ccr) (m : Mem) : col.Holds s.ccr (readModifyWrite m f s).ccr := by
  rw [readModifyWrite_ccr]
  exact hf _ _

theorem accStore_column (r : Acc) (m : Mem) :
    FlagColumn.Holds ⟨.kept, .computed, .computed, .zero, .kept⟩ s.ccr (accStore r m s).ccr := by
  rw [accStore_ccr]
  exact nz8_column _ _

theorem regStore_column (r : Reg16) (m : Mem) :
    FlagColumn.Holds ⟨.kept, .computed, .computed, .zero, .kept⟩ s.ccr (regStore r m s).ccr := by
  rw [regStore_ccr]
  exact nz16_column _ _

/-- An entry without X writes I alone of the condition codes. -/
theorem takeInterrupt_column (vector ret : Word) :
    FlagColumn.Holds ⟨.kept, .kept, .kept, .kept, .kept⟩ s.ccr (takeInterrupt vector false ret s).ccr := by
  rw [takeInterrupt, enterVector_ccr, stackFrame_ccr]
  exact putFlag_i_column _ _

end Shapes

/-! ## The table, row by row -/

/-- Every instruction goes on, and leaves condition codes as its row of the flags column says. -/
theorem exec_column (i : Instr) (s : State) :
    ∃ t, exec i s = .next t ∧ (flagColumn i).Holds s.ccr t.ccr := by
  cases i with
  | aba | adca | adcb | adda | addb | rti | tap => exact ⟨_, rfl, computed_column _ _⟩
  | cba | cmpa | cmpb | sba | sbca | sbcb | suba | subb | nega | negb => exact ⟨_, rfl, sub8_column _ _ _ _⟩
  | neg m => exact ⟨_, rfl, readModifyWrite_column s (fun c x => sub8_column c 0#8 x false) m⟩
  | addd => exact ⟨_, rfl, add16_column _ _ _⟩
  | subd | cpd | cpx | cpy => exact ⟨_, rfl, sub16_column _ _ _⟩
  | daa => exact ⟨_, rfl, decimalAdjust_column _ _ _⟩
  | dec m => exact ⟨_, rfl, readModifyWrite_column s decrement8_column m⟩
  | deca | decb => exact ⟨_, rfl, decrement8_column _ _⟩
  | inc m => exact ⟨_, rfl, readModifyWrite_column s increment8_column m⟩
  | inca | incb => exact ⟨_, rfl, increment8_column _ _⟩
  | fdiv => exact ⟨_, rfl, fractionalDivide_column _ _ _ _⟩
  | idiv => exact ⟨_, rfl, integerDivide_column _ _ _ _⟩
  | mul => exact ⟨_, rfl, multiply_column _ _ _⟩
  | tst | tsta | tstb => exact ⟨_, rfl, test8_column _ _⟩
  | anda | andb | bita | bitb | eora | eorb | oraa | orab | ldaa | ldab | tab | tba =>
    exact ⟨_, rfl, nz8_column _ _⟩
  | bclr m mm => exact ⟨_, rfl, readModifyWrite_column s (bitClear8_column · mm) m⟩
  | bset m mm => exact ⟨_, rfl, readModifyWrite_column s (bitSet8_column · mm) m⟩
  | asr m | lsl m | rol m | ror m => exact ⟨_, rfl, readModifyWrite_column s (fun c _ => shifted8_column c _ _) m⟩
  | asra | asrb | lsla | lslb | rola | rolb | rora | rorb => exact ⟨_, rfl, shifted8_column _ _ _⟩
  | lsld => exact ⟨_, rfl, shifted16_column _ _ _⟩
  | lsr m => exact ⟨_, rfl, readModifyWrite_column s shiftRight8_column m⟩
  | lsra | lsrb => exact ⟨_, rfl, shiftRight8_column _ _⟩
  | lsrd => exact ⟨_, rfl, shiftRight16_column _ _⟩
  | com m => exact ⟨_, rfl, readModifyWrite_column s complement8_column m⟩
  | coma | comb => exact ⟨_, rfl, complement8_column _ _⟩
  | dex | dey | inx | iny => exact ⟨_, rfl, indexStep_column s _ _⟩
  | lds | ldx | ldy | ldd => exact ⟨_, rfl, nz16_column _ _⟩
  | staa m | stab m => exact ⟨_, rfl, accStore_column s _ m⟩
  | sts m | stx m | sty m | std m => exact ⟨_, rfl, regStore_column s _ m⟩
  | clr => exact ⟨_, rfl, by rw [store_ccr]; exact clearFlags_column _⟩
  | clra | clrb => exact ⟨_, rfl, clearFlags_column _⟩
  | abx | aby | des | ins | tsx | tsy | txs | tys | tpa | jmp | nop => exact ⟨_, rfl, kept_column rfl⟩
  | pshx | pshy | pulx | puly | psha | pshb | pula | pulb | xgdx | xgdy | bsr | jsr | rts | wai =>
    exact ⟨_, rfl, kept_column (by simp)⟩
  | bra | brn | bhi | bls | bcc | bcs | bne | beq | bvc | bvs | bpl | bmi | bge | blt | bgt | ble | brclr | brset =>
    exact ⟨_, rfl, kept_column (by simp)⟩
  | stop => exact ⟨_, rfl, kept_column (by split <;> rfl)⟩
  | swi => exact ⟨_, rfl, takeInterrupt_column s _ _⟩
  | cli | sei => exact ⟨_, rfl, putFlag_i_column _ _⟩
  | clc | sec => exact ⟨_, rfl, putFlag_c_column rfl⟩
  | clv | sev => exact ⟨_, rfl, putFlag_v_column rfl⟩

/-- A CCR loaded as a byte has the byte's flags, X apart (10_state.md R36). -/
theorem flag_of_loadCcr {t : State} {old new : Byte} (h : t.ccr = loadCcr old new) {f : Flag} (hf : f ≠ .x) :
    t.flag f = getFlag new f := by
  rw [State.flag, h, getFlag_loadCcr, if_neg hf]

/-- Settles O13: the column row by row (`exec_column`), and the byte TAP and RTI load. -/
theorem flagsColumnHoldsForEveryInstruction : Obligations.FlagsColumnHoldsForEveryInstruction := by
  intro i s
  obtain ⟨t, ht, hh, hn, hz, hv, hc⟩ := exec_column i s
  have hx : ∀ f ∈ [Flag.h, .n, .z, .v, .c], f ≠ .x := by decide
  refine ⟨t, ht, hh, hn, hz, hv, hc, ?_, ?_⟩
  · rintro rfl f hf
    have hccr : t.ccr = loadCcr s.ccr s.a := congrArg State.ccr (Host.Outcome.next.inj ht).symm
    exact flag_of_loadCcr hccr (hx f hf)
  · rintro rfl f hf
    have hccr : t.ccr = loadCcr s.ccr (peek (s.sp + 1) s) := by
      rw [← Host.Outcome.next.inj ht, returnFromInterrupt_ccr]
    exact flag_of_loadCcr hccr (hx f hf)

end Sys2Proof.Machine

/-!
PROOFS. Entry and return (60_exceptions.md R336, R340, R343).

What an entry does once it is taken stands in Laws/Entry (`takeInterrupt_entered`), so what is left is which entry each event
brings and with what return address. The one fact the trap needs of its own is that an illegal code is fetched without
operand bytes, so that PC after the fetch is the byte after the opcode byte. RTI is read off the registers set apart
(Laws/Frame).
-/

namespace Sys2Proof.Machine

variable {s : State}

/-! ## The three events that enter -/

/-- An interrupt taken at a boundary returns to the instruction at PC (60_exceptions.md R334, R336). -/
theorem step_of_interrupt {vector : Word} {setX : Bool} (h : s.event = .interrupt vector setX) :
    step s = .next (takeInterrupt vector setX s.pc s.atBoundary) := by
  simp only [step, h, atBoundary_pc]

theorem exec_swi (s : State) : exec .swi s = .next (takeInterrupt swiVector false s.pc s) := rfl

/-- Bytes that select no instruction raise the trap (60_exceptions.md R340). -/
theorem step_of_decode_error {e : DecodeError} (hx : s.executes)
    (hd : decode s.cfg.opcodeMap (fetchBytes s.atBoundary) = .error e) :
    step s = .next (illegalOpcodeTrap s.pc (fetched s.atBoundary)) := by
  unfold State.executes at hx
  simp only [step, hx, fetchAndExecute, atBoundary_cfg, hd, atBoundary_pc]

/-! ## The return address of the illegal-opcode trap -/

theorem illegalOpcodeTrap_of_firstByte (start : Word) (h : s.cfg.illopReturn = .firstByte) :
    illegalOpcodeTrap start s = takeInterrupt illegalVector false start s := by
  simp only [illegalOpcodeTrap, h]

theorem illegalOpcodeTrap_of_afterOpcode (start : Word) (h : s.cfg.illopReturn = .afterOpcode) :
    illegalOpcodeTrap start s = takeInterrupt illegalVector false s.pc s := by
  simp only [illegalOpcodeTrap, h]

/-- An opcode byte that does not decode was fetched without operand bytes. -/
theorem operands_eq_nil_of_decodeOpcode_error {m : OpcodeMap} {pre : Option Byte} {op : Byte} {ops : List Byte}
    {e : DecodeError} (hl : ops.length = operandCount m pre op) (hd : decodeOpcode m pre op ops = .error e) :
    ops = [] := by
  obtain ⟨i, hi⟩ | ⟨-, hnil⟩ := decodeOpcode_of_length hl
  · rw [hi] at hd
    cases hd
  · exact hnil

/-- The fetch of an illegal code reads the prebyte, if there is one, and the opcode byte (30_encoding.md R96). -/
theorem fetchLength_of_decode_error {e : DecodeError} (hd : decode s.cfg.opcodeMap (fetchBytes s) = .error e) :
    fetchLength s = if s.cfg.opcodeMap.isPrebyte (peek s.pc s) = true then 2 else 1 := by
  cases hp : s.cfg.opcodeMap.isPrebyte (peek s.pc s) with
  | true =>
    obtain ⟨ops, hb, hlen, hcount⟩ := fetchBytes_of_prebyte hp
    simp only [hb, decode, hp, if_true] at hd
    rw [hlen, operands_eq_nil_of_decodeOpcode_error hcount hd]
    rfl
  | false =>
    obtain ⟨ops, hb, hlen, hcount⟩ := fetchBytes_of_page0 hp
    simp only [hb, decode, hp, Bool.false_eq_true, if_false] at hd
    rw [hlen, operands_eq_nil_of_decodeOpcode_error hcount hd]
    rfl

/-- After the fetch of an illegal code PC is the address of the byte after the opcode byte. -/
theorem fetched_pc_of_decode_error {e : DecodeError} (hd : decode s.cfg.opcodeMap (fetchBytes s) = .error e) :
    (fetched s).pc = s.pc + if s.cfg.opcodeMap.isPrebyte (peek s.pc s) = true then 2 else 1 := by
  rw [fetched_pc, fetchLength_of_decode_error hd]
  split <;> rfl

/-- Settles O17: each of the three events is a `takeInterrupt`, and `takeInterrupt_entered` says what that does. -/
theorem entrySequenceStacksAndVectors : Obligations.EntrySequenceStacksAndVectors := by
  refine ⟨fun s vector setX h => ?_, fun s => ?_, fun s e hx hd => ?_⟩
  · exact ⟨_, step_of_interrupt h, takeInterrupt_entered vector setX s.pc s.atBoundary⟩
  · exact ⟨_, exec_swi s, takeInterrupt_entered swiVector false s.pc s⟩
  · refine ⟨_, step_of_decode_error hx hd, ?_⟩
    have hcfg : (fetched s.atBoundary).cfg.illopReturn = s.cfg.illopReturn := by rw [fetched_cfg, atBoundary_cfg]
    cases hret : s.cfg.illopReturn with
    | firstByte =>
      rw [illegalOpcodeTrap_of_firstByte _ (hcfg.trans hret)]
      exact takeInterrupt_entered illegalVector false s.pc (fetched s.atBoundary)
    | afterOpcode =>
      have hpc := fetched_pc_of_decode_error (s := s.atBoundary) (by rwa [atBoundary_cfg])
      rw [atBoundary_cfg, atBoundary_pc] at hpc
      rw [illegalOpcodeTrap_of_afterOpcode _ (hcfg.trans hret), ← hpc]
      exact takeInterrupt_entered illegalVector false (fetched s.atBoundary).pc (fetched s.atBoundary)

/-! ## The return -/

theorem exec_rti (s : State) : exec .rti s = .next (returnFromInterrupt s) := rfl

/-- RTI in any state: nine reads above SP in ascending order, and the seven registers from them (44_jump_branch.md
R304). -/
theorem returnFromInterrupt_eq (s : State) :
    ∃ c b a xh xl yh yl ph pl, readBytes 9 (s.sp + 1) s = [c, b, a, xh, xl, yh, yl, ph, pl] ∧
      returnFromInterrupt s =
        withRegisters (touchBytes 9 (s.sp + 1) s) a b (join xh xl) (join yh yl) (s.sp + 9) (join ph pl)
          (loadCcr s.ccr c) :=
  returnFromInterrupt_withRegisters s s.a s.b s.ix s.iy s.sp s.pc s.ccr

section Registers

variable (s) (n : Nat) (x : Word) (a b : Byte) (ix iy sp pc : Word) (ccr : Byte)

/-- Reads, and any values in the registers, leave memory and everything outside the CPU as they were. -/
theorem frame_withRegisters_touchBytes :
    Frame [.a, .b, .ix, .iy, .sp] [.s, .x, .h, .i, .n, .z, .v, .c] [] s
      (withRegisters (touchBytes n x s) a b ix iy sp pc ccr) :=
  frame_of (touchBytes_mem s n x) (touchBytes_generation s n x) (touchBytes_cfg s n x) (touchBytes_lastReset s n x)
    (touchBytes_lines s n x) (touchBytes_script s n x)
    (fun r hr => by cases r <;> simp at hr) (fun f hf => by cases f <;> simp at hf)

theorem sameRun_withRegisters_touchBytes : SameRun s (withRegisters (touchBytes n x s) a b ix iy sp pc ccr) :=
  ⟨touchBytes_run s n x, touchBytes_lateClear s n x⟩

theorem sameAccesses_withRegisters : SameAccesses s (withRegisters s a b ix iy sp pc ccr) := ⟨rfl, rfl⟩

end Registers

/-- Settles O20: the nine bytes read (`returnFromInterrupt_eq`), the CCR loaded as a byte (`getFlag_loadCcr`), and what
reads leave alone (`frame_withRegisters_touchBytes`). -/
theorem rtiRestoresFromTheStack : Obligations.RtiRestoresFromTheStack := by
  intro s
  obtain ⟨c, b, a, xh, xl, yh, yl, ph, pl, hread, hrti⟩ := returnFromInterrupt_eq s
  refine ⟨_, c, (exec_rti s).trans (congrArg _ hrti), ?_, fun f => getFlag_loadCcr s.ccr c f, rfl,
    frame_withRegisters_touchBytes .., sameRun_withRegisters_touchBytes .., sameAccesses_withRegisters ..⟩
  simpa [withRegisters] using hread

end Sys2Proof.Machine

/-!
PROOFS. Reset (70_reset_and_hazards.md R381).

The state in which a reset reads its vector is `resetCleared` (Laws/Step). A vector that stands in memory is read there
without effect, so the state after the reset differs from `resetCleared` in PC alone, and PC holds that state's two bytes.
-/

namespace Sys2Proof.Machine

variable {s t : State}

/-- Whether bytes stand in memory depends on the configuration alone. -/
theorem inMemory_eq_of_cfg (h : t.cfg = s.cfg) (x : Word) (n : Nat) : t.inMemory x n = s.inMemory x n := by
  induction n generalizing x with
  | zero => rfl
  | succ n ih => simp only [State.inMemory, State.isMemory, kind_eq_of_cfg h, ih]

/-- A reset taken at a boundary (70_reset_and_hazards.md R380). -/
theorem step_of_reset {cause : ResetCause} (h : s.event = .reset cause) :
    step s = .next (resetSequence cause s.atBoundary) := by
  simp only [step, h]

/-- The Normal-mode vector of the cause, moved to the vector page of the mode, is the table's cell (R381). -/
theorem vec_resetVector (mode : Mode) (cause : ResetCause) : vec mode (resetVector cause) = resetCell mode cause := by
  cases mode <;> cases cause <;> rfl

theorem resetSequence_pc (cause : ResetCause) (s : State) :
    (resetSequence cause s).pc = peek16 (resetCell s.cfg.mode cause) (resetCleared cause s) := by
  rw [resetSequence_eq, vec_resetVector]

/-- Reading the vector changes no byte of memory. -/
theorem resetSequence_memByte (cause : ResetCause) (s : State) (x : Word) :
    (resetSequence cause s).memByte x = (resetCleared cause s).memByte x := by
  rw [resetSequence_eq]
  exact memByte_touch16 _ x (resetCleared cause s)

/-- A reset whose vector stands in memory leaves PC as the word there, high byte first. -/
theorem resetSequence_pc_of_inMemory (cause : ResetCause) (h : s.inMemory (resetCell s.cfg.mode cause) 2 = true) :
    (resetSequence cause s).pc =
      join ((resetSequence cause s).memByte (resetCell s.cfg.mode cause))
        ((resetSequence cause s).memByte (resetCell s.cfg.mode cause + 1)) := by
  have hcleared : (resetCleared cause s).inMemory (resetCell s.cfg.mode cause) 2 = true := by
    rwa [inMemory_eq_of_cfg (resetCleared_cfg cause s)]
  rw [resetSequence_pc, (peek16_of_inMemory hcleared).1, resetSequence_memByte, resetSequence_memByte]

/-- Settles O25: the step is the reset sequence, and PC joins the two bytes at the vector
(`resetSequence_pc_of_inMemory`). -/
theorem resetLoadsOneOfSixVectors : Obligations.ResetLoadsOneOfSixVectors := by
  intro s cause hreset
  refine ⟨_, step_of_reset hreset, fun hcell => ?_⟩
  have hcfg : s.atBoundary.cfg = s.cfg := atBoundary_cfg
  have hpc := resetSequence_pc_of_inMemory (s := s.atBoundary) cause (by rwa [inMemory_eq_of_cfg hcfg, hcfg])
  rw [hcfg] at hpc
  rw [hpc]
  exact ⟨hiByte_join _ _, loByte_join _ _⟩

end Sys2Proof.Machine

/-!
PROOFS. Decoding and encoding (30_encoding.md).

A table's encoder writes the bytes of a row it locates; the decoder reads a row it looks up. That the two rows are one is a
fact about the table (`lookup_of_mem`, from its well-formedness), and that a row's operand bytes make the instruction again
is a fact about operand forms (Laws/Decode). The default table adds that each mnemonic and mode has one row, and that the
encoder written from the `Encoding:` lines writes that row.
-/

namespace Sys2Proof

open Sys2Proof.Machine

variable {m : OpcodeMap} {i : Instr} {n : Mnemonic} {mode : AddrMode} {pre : Option Byte} {op : Byte}

/-! ## The rows of a table -/

/-- What makes a row the one the decoder finds for its prebyte and opcode byte: it is a row of that page, no other row of
the page has its opcode, and the first byte is a prebyte exactly where the page has one. -/
structure IsRow (m : OpcodeMap) (pre : Option Byte) (c : OpcodeCell) : Prop where
  mem : c ∈ m.cells pre
  unique : ∀ d ∈ m.cells pre, d.opcode = c.opcode → d = c
  prebyte : ∀ b, pre = some b → m.isPrebyte b = true
  page0 : pre = none → m.isPrebyte c.opcode = false

theorem risingOpcodes_pairwise {l : List OpcodeCell} (h : risingOpcodes l = true) :
    l.Pairwise fun c d => c.opcode.toNat < d.opcode.toNat := by
  induction l with
  | nil => exact .nil
  | cons c l ih =>
    cases l with
    | nil => exact List.pairwise_singleton _ _
    | cons d l =>
      simp only [risingOpcodes, Bool.and_eq_true, decide_eq_true_eq] at h
      obtain ⟨hcd, hrest⟩ := h
      have hp := ih hrest
      refine List.pairwise_cons.2 ⟨fun e he => ?_, hp⟩
      obtain rfl | he := List.mem_cons.1 he
      · exact hcd
      · exact hcd.trans ((List.pairwise_cons.1 hp).1 e he)

/-- On a page whose opcodes rise, an opcode byte has one row. -/
theorem eq_of_risingOpcodes {l : List OpcodeCell} (h : risingOpcodes l = true) {c d : OpcodeCell} (hc : c ∈ l)
    (hd : d ∈ l) (e : d.opcode = c.opcode) : d = c := by
  have hnodup : (l.map OpcodeCell.opcode).Nodup :=
    List.pairwise_map.2 ((risingOpcodes_pairwise h).imp fun hlt he => absurd hlt (by rw [he]; exact lt_irrefl _))
  exact List.inj_on_of_nodup_map hnodup hd hc e

/-- The parts of a table's well-formedness that decoding needs. -/
theorem OpcodeMap.wf_parts (h : m.wf = true) :
    (m.pages.map OpcodePage.prebyte).Nodup ∧ (∀ c ∈ m.page0, m.isPrebyte c.opcode = false) ∧
      risingOpcodes m.page0 = true ∧ (∀ c ∈ m.page0, c.shape.isSome = true) ∧
      ∀ p ∈ m.pages, risingOpcodes p.cells = true ∧ ∀ c ∈ p.cells, c.shape.isSome = true := by
  simp only [OpcodeMap.wf, Bool.and_eq_true, decide_eq_true_eq, List.all_eq_true, Bool.not_eq_true'] at h
  obtain ⟨⟨⟨⟨⟨-, hnodup⟩, hfree⟩, hrise⟩, hshape⟩, hpages⟩ := h
  exact ⟨hnodup, hfree, hrise, hshape, hpages⟩

/-- Where the prebytes of a table differ, a prebyte selects its own page. -/
theorem OpcodeMap.cells_of_page (h : (m.pages.map OpcodePage.prebyte).Nodup) {p : OpcodePage} (hp : p ∈ m.pages) :
    m.cells (some p.prebyte) = p.cells := by
  have hfind : m.pages.find? (fun q => q.prebyte == p.prebyte) = some p := by
    rw [List.find?_eq_some_iff_append]
    obtain ⟨l, r, hl⟩ := List.append_of_mem hp
    refine ⟨by simp, l, r, hl, fun q hq => ?_⟩
    rw [hl, List.map_append, List.map_cons] at h
    have hne := (List.nodup_append.1 h).2.2 q.prebyte (List.mem_map_of_mem hq) p.prebyte List.mem_cons_self
    simpa using hne
  simp only [OpcodeMap.cells, hfind]

theorem mem_of_find_row {l : List OpcodeCell} {c : OpcodeCell}
    (h : l.find? (fun c => c.mnemonic == n && c.mode == mode) = some c) : ⟨c.opcode, n, mode⟩ ∈ l := by
  have hc := (List.find?_eq_some_iff_append.1 h).1
  simp only [Bool.and_eq_true, beq_iff_eq] at hc
  obtain ⟨rfl, rfl⟩ := hc
  exact List.mem_of_find?_eq_some h

/-- The row an encoder locates is a row of its page, and the operand form it names is one of the instruction's. -/
theorem isRow_of_locate (hm : m.wf = true) (h : m.locate n mode = some (pre, op)) :
    IsRow m pre ⟨op, n, mode⟩ ∧ ((forms n).shape mode).isSome = true := by
  obtain ⟨hnodup, hfree, hrise, hshape, hpages⟩ := OpcodeMap.wf_parts hm
  unfold OpcodeMap.locate at h
  split at h
  · next c hc =>
    obtain ⟨rfl, rfl⟩ := Prod.mk.inj (Option.some.inj h)
    have hmem := mem_of_find_row hc
    exact ⟨⟨hmem, fun d hd => eq_of_risingOpcodes hrise hmem hd, by simp, fun _ => hfree _ hmem⟩, hshape _ hmem⟩
  · obtain ⟨p, hp, hfound⟩ := List.exists_of_findSome?_eq_some h
    obtain ⟨c, hc, hpre⟩ := Option.map_eq_some_iff.1 hfound
    obtain ⟨rfl, rfl⟩ := Prod.mk.inj hpre
    obtain ⟨hrise', hshape'⟩ := hpages p hp
    have hmem := mem_of_find_row hc
    have hcells := OpcodeMap.cells_of_page hnodup hp
    refine ⟨⟨by rwa [hcells], fun d hd => ?_, fun b hb => ?_, by simp⟩, hshape' _ hmem⟩
    · rw [hcells] at hd
      exact eq_of_risingOpcodes hrise' hmem hd
    · obtain rfl := Option.some.inj hb
      exact List.any_eq_true.2 ⟨p, hp, by simp⟩

/-- The decoder looks up the row itself. -/
theorem lookup_of_isRow {c : OpcodeCell} (h : IsRow m pre c) : lookup m pre c.opcode = c.shape := by
  obtain ⟨d, hd⟩ : ∃ d, (m.cells pre).find? (fun d => d.opcode == c.opcode) = some d :=
    Option.isSome_iff_exists.1 (List.find?_isSome.2 ⟨c, h.mem, by simp⟩)
  have hdc : d = c := h.unique d (List.mem_of_find?_eq_some hd) (by simpa using List.find?_some hd)
  simp only [lookup, hd, hdc, Option.bind_some]

/-- Bytes of a row go to `decodeOpcode` with the row's prebyte and opcode. -/
theorem decode_rowBytes {c : OpcodeCell} (h : IsRow m pre c) (bs : List Byte) :
    decode m (rowBytes pre c.opcode bs) = decodeOpcode m pre c.opcode bs := by
  cases pre with
  | none => simp [rowBytes, decode, h.page0 rfl]
  | some b => simp [rowBytes, decode, h.prebyte b rfl]

/-! ## Reading back -/

/-- An instruction that is not well formed has an operand form that its mnemonic has not. -/
theorem shape_eq_none_of_not_wf (h : i.wf = false) : (forms i.parts.mnemonic).shape i.parts.mode = none := by
  cases i with
  | neg m | com m | lsr m | ror m | asr m | lsl m | rol m | dec m | inc m | tst m | jmp m | clr m =>
    cases m with
    | dir => rfl
    | ext | indx | indy => cases h
  | bset m | bclr m | brset m | brclr m =>
    cases m with
    | ext => rfl
    | dir | indx | indy => cases h
  | _ => cases h

theorem decodeOpcode_operands {sh : Shape} (hs : lookup m pre op = some sh) {ops rest : List Byte}
    (hp : parseOperands sh (ops ++ rest) = some (i, rest)) :
    decodeOpcode m pre op (ops ++ rest) = .ok (i, rest) := by
  simp only [decodeOpcode, hs, hp]

/-- What the encoder of a well-formed table writes, the decoder reads back. -/
theorem decode_encodeWith {bs : List Byte} (hm : m.wf = true) (h : encodeWith m i = some bs) (rest : List Byte) :
    decode m (bs ++ rest) = .ok (i, rest) := by
  obtain ⟨⟨pre, op⟩, hloc, rfl⟩ := Option.map_eq_some_iff.1 h
  obtain ⟨hrow, hsome⟩ := isRow_of_locate hm hloc
  have hwf : i.wf = true := by
    by_contra hn
    rw [shape_eq_none_of_not_wf (Bool.eq_false_of_not_eq_true hn)] at hsome
    cases hsome
  obtain ⟨sh, hsh, hparse⟩ := parseOperands_parts hwf
  have happ : rowBytes pre op i.parts.operands ++ rest = rowBytes pre op (i.parts.operands ++ rest) := by
    simp [rowBytes]
  rw [happ, decode_rowBytes hrow]
  exact decodeOpcode_operands ((lookup_of_isRow hrow).trans hsh) (hparse rest)

/-! ## The default table's encoder -/

/-- The prebyte, if any, and the opcode byte that the default table has for a mnemonic and a mode. -/
def defaultOpcode (n : Mnemonic) (mode : AddrMode) : Option (List Byte) :=
  (defaultOpcodeMap.locate n mode).map fun r => r.1.toList ++ [r.2]

theorem encodeWith_default_of {opcode : List Byte} (h : defaultOpcode i.parts.mnemonic i.parts.mode = some opcode)
    (he : encode i = opcode ++ i.parts.operands) : encodeWith defaultOpcodeMap i = some (encode i) := by
  obtain ⟨r, hr, rfl⟩ := Option.map_eq_some_iff.1 h
  simp only [encodeWith, hr, he, Option.map_some, rowBytes, List.append_assoc, List.cons_append, List.nil_append]

/-- The opcodes of the five modes of an operand that may be an immediate. -/
def fiveOpcodes (n : Mnemonic) (imm : AddrMode) : List (Option (List Byte)) :=
  [defaultOpcode n imm, defaultOpcode n .dir, defaultOpcode n .indx, defaultOpcode n .indy, defaultOpcode n .ext]

section Forms

variable {imm dir indx indy ext opcode : List Byte}

theorem encodeWith_noteA {mk : Mem → Instr} (hp : ∀ m, (mk m).parts = partsMem n [] m)
    (he : ∀ m, encode (mk m) = encodeNoteA dir indx indy ext m)
    (hdir : defaultOpcode n .dir = some dir) (hindx : defaultOpcode n .indx = some indx)
    (hindy : defaultOpcode n .indy = some indy) (hext : defaultOpcode n .ext = some ext) (m : Mem) :
    encodeWith defaultOpcodeMap (mk m) = some (encode (mk m)) := by
  cases m with
  | dir => exact encodeWith_default_of (by rw [hp]; exact hdir) (by rw [hp, he]; rfl)
  | ext => exact encodeWith_default_of (by rw [hp]; exact hext) (by rw [hp, he]; rfl)
  | indx => exact encodeWith_default_of (by rw [hp]; exact hindx) (by rw [hp, he]; rfl)
  | indy => exact encodeWith_default_of (by rw [hp]; exact hindy) (by rw [hp, he]; rfl)

theorem encodeWith_op8 {mk : Operand8 → Instr} (hp : ∀ op, (mk op).parts = partsOp8 n op)
    (he : ∀ op, encode (mk op) = encodeOp8 imm dir indx indy ext op)
    (h : fiveOpcodes n .imm8 = [some imm, some dir, some indx, some indy, some ext]) (op : Operand8) :
    encodeWith defaultOpcodeMap (mk op) = some (encode (mk op)) := by
  simp only [fiveOpcodes, List.cons.injEq, and_true] at h
  obtain ⟨himm, hdir, hindx, hindy, hext⟩ := h
  cases op with
  | imm ii => exact encodeWith_default_of (by rw [hp]; exact himm) (by rw [hp, he]; rfl)
  | mem m =>
    exact encodeWith_noteA (mk := fun m => mk (.mem m)) (fun m => hp _) (fun m => he _) hdir hindx hindy hext m

theorem encodeWith_op16 {mk : Operand16 → Instr} (hp : ∀ op, (mk op).parts = partsOp16 n op)
    (he : ∀ op, encode (mk op) = encodeOp16 imm dir indx indy ext op)
    (h : fiveOpcodes n .imm16 = [some imm, some dir, some indx, some indy, some ext]) (op : Operand16) :
    encodeWith defaultOpcodeMap (mk op) = some (encode (mk op)) := by
  simp only [fiveOpcodes, List.cons.injEq, and_true] at h
  obtain ⟨himm, hdir, hindx, hindy, hext⟩ := h
  cases op with
  | imm jjkk => exact encodeWith_default_of (by rw [hp]; exact himm) (by rw [hp, he]; rfl)
  | mem m =>
    exact encodeWith_noteA (mk := fun m => mk (.mem m)) (fun m => hp _) (fun m => he _) hdir hindx hindy hext m

theorem encodeWith_noteE {mk : Mem → Instr} (hp : ∀ m, (mk m).parts = partsMem n [] m)
    (he : ∀ m, encode (mk m) = encodeNoteE indx indy ext m)
    (h : [defaultOpcode n .indx, defaultOpcode n .indy, defaultOpcode n .ext] = [some indx, some indy, some ext])
    {m : Mem} (hm : m.noteE = true) : encodeWith defaultOpcodeMap (mk m) = some (encode (mk m)) := by
  simp only [List.cons.injEq, and_true] at h
  obtain ⟨hindx, hindy, hext⟩ := h
  cases m with
  | dir => cases hm
  | ext => exact encodeWith_default_of (by rw [hp]; exact hext) (by rw [hp, he]; rfl)
  | indx => exact encodeWith_default_of (by rw [hp]; exact hindx) (by rw [hp, he]; rfl)
  | indy => exact encodeWith_default_of (by rw [hp]; exact hindy) (by rw [hp, he]; rfl)

theorem encodeWith_noteD {mk : Mem → Instr} {tail : List Byte} (hp : ∀ m, (mk m).parts = partsMem n tail m)
    (he : ∀ m, encode (mk m) = encodeNoteD dir indx indy tail m)
    (h : [defaultOpcode n .dir, defaultOpcode n .indx, defaultOpcode n .indy] = [some dir, some indx, some indy])
    {m : Mem} (hm : m.noteD = true) : encodeWith defaultOpcodeMap (mk m) = some (encode (mk m)) := by
  simp only [List.cons.injEq, and_true] at h
  obtain ⟨hdir, hindx, hindy⟩ := h
  cases m with
  | ext => cases hm
  | dir => exact encodeWith_default_of (by rw [hp]; exact hdir) (by rw [hp, he]; rfl)
  | indx => exact encodeWith_default_of (by rw [hp]; exact hindx) (by rw [hp, he]; rfl)
  | indy => exact encodeWith_default_of (by rw [hp]; exact hindy) (by rw [hp, he]; rfl)

theorem encodeWith_relative {mk : Byte → Instr} (hp : ∀ rr, (mk rr).parts = ⟨n, .rel, [rr]⟩)
    (he : ∀ rr, encode (mk rr) = opcode ++ [rr]) (h : defaultOpcode n .rel = some opcode) (rr : Byte) :
    encodeWith defaultOpcodeMap (mk rr) = some (encode (mk rr)) :=
  encodeWith_default_of (by rw [hp]; exact h) (by rw [hp, he])

theorem encodeWith_inherent (hp : i.parts = ⟨n, .inh, []⟩) (he : encode i = opcode)
    (h : defaultOpcode n .inh = some opcode) : encodeWith defaultOpcodeMap i = some (encode i) :=
  encodeWith_default_of (by rw [hp]; exact h) (by rw [hp, he, List.append_nil])

end Forms

/-- The encoder written from the `Encoding:` lines is the default table's, one case for each kind of operand. -/
theorem encodeWith_default (h : i.wf = true) : encodeWith defaultOpcodeMap i = some (encode i) := by
  cases i with
  | adca op | adcb op | adda op | addb op | cmpa op | cmpb op | sbca op | sbcb op | suba op | subb op | anda op | andb op
  | bita op | bitb op | eora op | eorb op | oraa op | orab op | ldaa op | ldab op =>
    exact encodeWith_op8 (fun _ => rfl) (fun _ => rfl) (by decide +kernel) op
  | addd op | cpd op | subd op | cpx op | cpy op | lds op | ldx op | ldy op | ldd op =>
    exact encodeWith_op16 (fun _ => rfl) (fun _ => rfl) (by decide +kernel) op
  | sts m | stx m | sty m | staa m | stab m | std m | jsr m =>
    exact encodeWith_noteA (fun _ => rfl) (fun _ => rfl) (by decide +kernel) (by decide +kernel) (by decide +kernel)
      (by decide +kernel) m
  | dec m | inc m | neg m | tst m | asr m | com m | lsl m | lsr m | rol m | ror m | clr m | jmp m =>
    exact encodeWith_noteE (fun _ => rfl) (fun _ => rfl) (by decide +kernel) h
  | bclr m mm =>
    exact encodeWith_noteD (mk := (.bclr · mm)) (fun _ => rfl) (fun _ => rfl) (by decide +kernel) h
  | bset m mm =>
    exact encodeWith_noteD (mk := (.bset · mm)) (fun _ => rfl) (fun _ => rfl) (by decide +kernel) h
  | brclr m mm rr =>
    exact encodeWith_noteD (mk := (.brclr · mm rr)) (fun _ => rfl) (fun _ => rfl) (by decide +kernel) h
  | brset m mm rr =>
    exact encodeWith_noteD (mk := (.brset · mm rr)) (fun _ => rfl) (fun _ => rfl) (by decide +kernel) h
  | bra rr | brn rr | bhi rr | bls rr | bcc rr | bcs rr | bne rr | beq rr | bvc rr | bvs rr | bpl rr | bmi rr | bge rr
  | blt rr | bgt rr | ble rr | bsr rr =>
    exact encodeWith_relative (opcode := [_]) (fun _ => rfl) (fun _ => rfl) (by decide +kernel) rr
  | _ => exact encodeWith_inherent rfl rfl (by decide +kernel)

/-- Settles O1: the default table is one of the well-formed ones (`test_default_map_is_wf`), and its encoder is `encode`. -/
theorem decodeReadsBackEveryEncoding : Obligations.DecodeReadsBackEveryEncoding :=
  ⟨fun _ rest hwf =>
      ⟨decode_encodeWith Tests.test_default_map_is_wf (encodeWith_default hwf) rest, encodeWith_default hwf⟩,
    fun _ _ _ rest hm h => decode_encodeWith hm h rest⟩

/-! ## No other bytes -/

/-- What decodes is a row of the table and the operand bytes of the instruction. -/
theorem rowBytes_of_decode {bs rest : List Byte} (h : decode m bs = .ok (i, rest)) :
    i.wf = true ∧ ∃ pre op, ⟨op, i.parts.mnemonic, i.parts.mode⟩ ∈ m.cells pre ∧
      bs = rowBytes pre op i.parts.operands ++ rest := by
  obtain _ | ⟨b, bs⟩ := bs
  · cases h
  · cases hp : m.isPrebyte b with
    | true =>
      obtain _ | ⟨op, bs⟩ := bs
      · simp [decode, hp] at h
      · simp only [decode, hp, if_true] at h
        obtain ⟨hwf, hmem, rfl, -⟩ := decodeOpcode_ok h
        exact ⟨hwf, some b, op, hmem, by simp [rowBytes]⟩
    | false =>
      simp only [decode, hp, Bool.false_eq_true, if_false] at h
      obtain ⟨hwf, hmem, rfl, -⟩ := decodeOpcode_ok h
      exact ⟨hwf, none, b, hmem, by simp [rowBytes]⟩

/-- A mnemonic and a mode have one row on all the pages of the default table. -/
theorem locate_default_of_mem {c : OpcodeCell} (h : c ∈ defaultOpcodeMap.cells pre) :
    defaultOpcodeMap.locate c.mnemonic c.mode = some (pre, c.opcode) := by
  have hall : ∀ pre ∈ [none, some 0x18#8, some 0x1A#8, some 0xCD#8], ∀ c ∈ defaultOpcodeMap.cells pre,
      defaultOpcodeMap.locate c.mnemonic c.mode = some (pre, c.opcode) := by decide +kernel
  refine hall pre ?_ c h
  cases pre with
  | none => exact List.mem_cons_self
  | some b =>
    by_contra hb
    simp only [List.mem_cons, reduceCtorEq, Option.some.injEq, List.not_mem_nil, or_false, false_or, not_or] at hb
    obtain ⟨h18, h1A, hCD⟩ := hb
    simp [OpcodeMap.cells, defaultOpcodeMap, Ne.symm h18, Ne.symm h1A, Ne.symm hCD] at h

/-- Settles O2: the row is the one that was looked up, and for the default table the one the encoder locates. -/
theorem decodedBytesAreTheEncoding : Obligations.DecodedBytesAreTheEncoding := by
  intro m bs i rest h
  obtain ⟨hwf, pre, op, hmem, rfl⟩ := rowBytes_of_decode h
  refine ⟨hwf, ⟨pre, op, hmem, rfl⟩, ?_⟩
  rintro rfl
  have henc := encodeWith_default hwf
  simp only [encodeWith, locate_default_of_mem hmem, Option.map_some, Option.some.injEq] at henc
  rw [henc]

/-! ## Legal and illegal codes -/

theorem parseOperands_of_length_le {sh : Shape} {bs : List Byte} (h : operandBytes sh ≤ bs.length) :
    ∃ r, parseOperands sh bs = some r := by
  cases sh <;> rcases bs with _ | ⟨x, _ | ⟨y, _ | ⟨z, bs⟩⟩⟩ <;> first
    | exact ⟨_, rfl⟩
    | simp [operandBytes] at h

/-- With as many bytes as the longest operands have, an opcode byte decodes exactly when it has a row. -/
theorem decodeOpcode_ok_iff {bs : List Byte} (h : 3 ≤ bs.length) :
    (∃ r, decodeOpcode m pre op bs = .ok r) ↔ (lookup m pre op).isSome = true := by
  unfold decodeOpcode
  cases lookup m pre op with
  | none => simp
  | some sh =>
    obtain ⟨r, hr⟩ := parseOperands_of_length_le ((operandBytes_le sh).trans h)
    simp [hr]

theorem lookup_default_18 : ∀ op, (lookup defaultOpcodeMap (some 0x18#8) op).isSome = true ↔ op.toNat ∈ legalAfter18 := by
  decide +kernel

theorem lookup_default_1A : ∀ op, (lookup defaultOpcodeMap (some 0x1A#8) op).isSome = true ↔ op.toNat ∈ legalAfter1A := by
  decide +kernel

theorem lookup_default_CD : ∀ op, (lookup defaultOpcodeMap (some 0xCD#8) op).isSome = true ↔ op.toNat ∈ legalAfterCD := by
  decide +kernel

theorem lookup_default_page0 : ∀ op, op ≠ 0x18#8 → op ≠ 0x1A#8 → op ≠ 0xCD#8 →
    ((lookup defaultOpcodeMap none op).isSome = true ↔ op.toNat ∉ illegalPage0) := by
  decide +kernel

theorem isPrebyte_default (b : Byte) :
    defaultOpcodeMap.isPrebyte b = (0x18#8 == b || (0x1A#8 == b || (0xCD#8 == b || false))) := rfl

/-- Settles O3: five bytes are enough for the operands of every row, so the first one or two of them decide, which is
evaluated page by page. -/
theorem illegalCodesAreTheListedOnes : Obligations.IllegalCodesAreTheListedOnes := by
  intro b0 b1 b2 b3 b4
  split
  · next h => subst h; exact (decodeOpcode_ok_iff (by simp)).trans (lookup_default_18 b1)
  · next h18 =>
    split
    · next h => subst h; exact (decodeOpcode_ok_iff (by simp)).trans (lookup_default_1A b1)
    · next h1A =>
      split
      · next h => subst h; exact (decodeOpcode_ok_iff (by simp)).trans (lookup_default_CD b1)
      · next hCD =>
        have hpre : defaultOpcodeMap.isPrebyte b0 = false := by
          simp [isPrebyte_default, Ne.symm h18, Ne.symm h1A, Ne.symm hCD]
        simp only [decode, hpre, Bool.false_eq_true, if_false]
        exact (decodeOpcode_ok_iff (by simp)).trans (lookup_default_page0 b0 h18 h1A hCD)

/-- Settles O4: each word decodes as written. -/
theorem writtenWordsDecode : Obligations.WrittenWordsDecode := by
  unfold Obligations.WrittenWordsDecode
  decide

/-! ## The length of an instruction -/

theorem operandCount_le : operandCount m pre op ≤ 3 := by
  unfold operandCount
  split
  · exact Nat.zero_le _
  · exact operandBytes_le _

/-- The operand bytes fetched are all the operand bytes of the instruction they make. -/
theorem operands_of_decodeOpcode {ops rest : List Byte} (hl : ops.length = operandCount m pre op)
    (h : decodeOpcode m pre op ops = .ok (i, rest)) :
    rest = [] ∧ ops.length = i.parts.operands.length ∧ i.parts.operands.length ≤ 3 := by
  obtain ⟨-, -, hops, hcount⟩ := decodeOpcode_ok h
  have hlen : ops.length = i.parts.operands.length + rest.length := by rw [hops, List.length_append]
  exact ⟨List.length_eq_zero_iff.1 (by omega), by omega, hcount ▸ operandCount_le⟩

/-- The bytes fetched are the prebyte, if any, the opcode byte and the operand bytes. -/
theorem fetchLength_of_decode_ok {s : State} {rest : List Byte}
    (h : decode s.cfg.opcodeMap (fetchBytes s) = .ok (i, rest)) :
    rest = [] ∧ i.parts.operands.length ≤ 3 ∧
      fetchLength s = (if s.cfg.opcodeMap.isPrebyte (peek s.pc s) = true then 1 else 0) + 1 + i.parts.operands.length := by
  cases hp : s.cfg.opcodeMap.isPrebyte (peek s.pc s) with
  | true =>
    obtain ⟨ops, hb, hlen, hcount⟩ := fetchBytes_of_prebyte hp
    simp only [hb, decode, hp, if_true] at h
    obtain ⟨hrest, hops, hle⟩ := operands_of_decodeOpcode hcount h
    exact ⟨hrest, hle, by rw [hlen, hops]; simp⟩
  | false =>
    obtain ⟨ops, hb, hlen, hcount⟩ := fetchBytes_of_page0 hp
    simp only [hb, decode, hp, Bool.false_eq_true, if_false] at h
    obtain ⟨hrest, hops, hle⟩ := operands_of_decodeOpcode hcount h
    exact ⟨hrest, hle, by rw [hlen, hops]; simp⟩

/-- Settles O5: the fetch reads as many bytes as the instruction has (`fetchLength_of_decode_ok`). -/
theorem instructionLengthGivesTheNextAddress : Obligations.InstructionLengthGivesTheNextAddress := by
  intro s i rest h prebytes length
  obtain ⟨hrest, hle, hlen⟩ := fetchLength_of_decode_ok h
  have hpre : prebytes ≤ 1 := by simp only [prebytes]; split <;> omega
  have hlength : fetchLength s = length := hlen
  refine ⟨hrest, (fetchBytes_length s).trans hlength, ?_, ?_, ?_⟩
  · simp only [length]; omega
  · simp only [length]; omega
  · rw [fetched_pc, hlength, BitVec.toNat_add, BitVec.toNat_ofNat, Nat.add_mod_mod]

end Sys2Proof

/-!
PROOFS. What an instruction leaves alone, as a small calculus.

`Effect` is the frame of `Runs` (Safety.lean) together with what no instruction does to memory (`Kept`). It is built in the
order in which an instruction works: nothing has happened yet (`Effect.refl`), a byte is read (`touch`), a byte is written
(`store`), the registers take their values (`registers`). Each shape of instruction of Machine/Operands is such a chain.
-/

namespace Sys2Proof.Machine

variable {s t u acc : State} {regs regs₀ : List Reg} {flags flags₀ : List Flag} {stored : List Word}

/-! ## What every instruction keeps -/

/-- What no instruction changes: the configuration, the lines, the bytes that are not RAM, the canonical form of memory. -/
structure Kept (s t : State) : Prop where
  cfg : t.cfg = s.cfg
  lines : t.lines = s.lines
  script : t.script = s.script
  memory : ∀ x, s.kind x ≠ .ram → t.memByte x = s.memByte x
  wf : Memory.wf s.mem = true → Memory.wf t.mem = true

theorem Kept.refl (s : State) : Kept s s := ⟨rfl, rfl, rfl, fun _ _ => rfl, id⟩

theorem Kept.trans (h : Kept s t) (h' : Kept t u) : Kept s u where
  cfg := h'.cfg.trans h.cfg
  lines := h'.lines.trans h.lines
  script := h'.script.trans h.script
  memory x hx := (h'.memory x (by rwa [kind_eq_of_cfg h.cfg])).trans (h.memory x hx)
  wf hw := h'.wf (h.wf hw)

theorem kept_of_mem (hm : t.mem = s.mem) (hg : t.generation = s.generation) (hc : t.cfg = s.cfg)
    (hl : t.lines = s.lines) (hs : t.script = s.script) : Kept s t :=
  ⟨hc, hl, hs, fun x _ => memByte_congr hm hg hc x, fun hw => by rwa [hm]⟩

theorem kept_store (x : Word) (v : Byte) (s : State) : Kept s (store x v s) where
  cfg := store_cfg s x v
  lines := store_lines s x v
  script := store_script s x v
  memory y hy := by
    by_cases hyx : y = x
    · subst hyx
      exact memByte_store_of_not_ram hy v y
    · exact memByte_store_ne hyx v s
  wf hw := store_wf hw x v

theorem kept_push (v : Byte) (s : State) : Kept s (push v s) :=
  (kept_store s.sp v s).trans (kept_of_mem rfl rfl rfl rfl rfl)

theorem kept_pushAll (l : List Byte) (s : State) : Kept s (pushAll l s) := by
  induction l generalizing s with
  | nil => exact .refl s
  | cons v l ih => exact (kept_push v s).trans (ih (push v s))

theorem kept_stackFrame (ret : Word) (s : State) : Kept s (stackFrame ret s) := by
  rw [stackFrame_eq_pushAll]
  exact kept_pushAll _ s

theorem kept_enterVector (vector : Word) (setX : Bool) (s : State) : Kept s (enterVector vector setX s) :=
  kept_of_mem (enterVector_mem ..) (enterVector_generation ..) (enterVector_cfg ..) (enterVector_lines ..)
    (enterVector_script ..)

theorem kept_takeInterrupt (vector : Word) (setX : Bool) (ret : Word) (s : State) :
    Kept s (takeInterrupt vector setX ret s) :=
  (kept_stackFrame ret s).trans (kept_enterVector vector setX _)

theorem kept_touchBytes (n : Nat) (x : Word) (s : State) : Kept s (touchBytes n x s) :=
  kept_of_mem (touchBytes_mem ..) (touchBytes_generation ..) (touchBytes_cfg ..) (touchBytes_lines ..)
    (touchBytes_script ..)

theorem kept_withRegisters (s : State) (a b : Byte) (ix iy sp pc : Word) (ccr : Byte) :
    Kept s (withRegisters s a b ix iy sp pc ccr) := kept_of_mem rfl rfl rfl rfl rfl

theorem kept_setRun (s : State) (r : RunState) : Kept s { s with run := r } := kept_of_mem rfl rfl rfl rfl rfl

/-! ## The flags a writer leaves alone -/

/-- From one CCR value to another no flag outside a list changes. -/
def FlagsKept (flags : List Flag) (c d : Byte) : Prop := ∀ f, f ∉ flags → getFlag d f = getFlag c f

section Writers

variable (c : Byte) (h n z v k : Bool)

theorem flagsKept_self : FlagsKept flags c c := fun _ _ => rfl

theorem putFlag_flagsKept (f : Flag) (b : Bool) : FlagsKept [f] c (putFlag c f b) := by
  intro g hg
  rw [getFlag_putFlag, if_neg (Ne.symm (List.ne_of_not_mem_cons hg))]

theorem putZ_flagsKept : FlagsKept [.z] c (putZ c z) := putFlag_flagsKept c .z z

theorem putZVC_flagsKept : FlagsKept [.z, .v, .c] c (putZVC c z v k) := by
  intro f hf
  simp only [List.mem_cons, List.not_mem_nil, or_false, not_or] at hf
  simp [hf]

theorem putNZV_flagsKept : FlagsKept [.n, .z, .v] c (putNZV c n z v) := by
  intro f hf
  simp only [List.mem_cons, List.not_mem_nil, or_false, not_or] at hf
  simp [hf]

theorem putNZVC_flagsKept : FlagsKept [.n, .z, .v, .c] c (putNZVC c n z v k) := by
  intro f hf
  simp only [List.mem_cons, List.not_mem_nil, or_false, not_or] at hf
  simp [hf]

theorem putHNZVC_flagsKept : FlagsKept [.h, .n, .z, .v, .c] c (putHNZVC c h n z v k) := by
  intro f hf
  simp only [List.mem_cons, List.not_mem_nil, or_false, not_or] at hf
  simp [hf]

theorem add8_flagsKept (x y : Byte) (cin : Bool) : FlagsKept [.h, .n, .z, .v, .c] c (add8 x y cin c).ccr :=
  putHNZVC_flagsKept _ _ _ _ _ _

theorem sub8_flagsKept (x y : Byte) (bin : Bool) : FlagsKept [.n, .z, .v, .c] c (sub8 x y bin c).ccr :=
  putNZVC_flagsKept _ _ _ _ _

theorem add16_flagsKept (x y : Word) : FlagsKept [.n, .z, .v, .c] c (add16 x y c).ccr := putNZVC_flagsKept _ _ _ _ _

theorem sub16_flagsKept (x y : Word) : FlagsKept [.n, .z, .v, .c] c (sub16 x y c).ccr := putNZVC_flagsKept _ _ _ _ _

theorem nz8_flagsKept (r : Byte) : FlagsKept [.n, .z, .v] c (nz8 r c) := putNZV_flagsKept _ _ _ _

theorem nz16_flagsKept (r : Word) : FlagsKept [.n, .z, .v] c (nz16 r c) := putNZV_flagsKept _ _ _ _

theorem decrement8_flagsKept (x : Byte) : FlagsKept [.n, .z, .v] c (decrement8 x c).ccr := putNZV_flagsKept _ _ _ _

theorem increment8_flagsKept (x : Byte) : FlagsKept [.n, .z, .v] c (increment8 x c).ccr := putNZV_flagsKept _ _ _ _

theorem bitClear8_flagsKept (mm x : Byte) : FlagsKept [.n, .z, .v] c (bitClear8 mm x c).ccr := nz8_flagsKept _ _

theorem bitSet8_flagsKept (mm x : Byte) : FlagsKept [.n, .z, .v] c (bitSet8 mm x c).ccr := nz8_flagsKept _ _

theorem test8_flagsKept (x : Byte) : FlagsKept [.n, .z, .v, .c] c (test8 x c) := putNZVC_flagsKept _ _ _ _ _

theorem clearFlags_flagsKept : FlagsKept [.n, .z, .v, .c] c (clearFlags c) := putNZVC_flagsKept _ _ _ _ _

theorem shifted8_flagsKept (r : Byte) (out : Bool) : FlagsKept [.n, .z, .v, .c] c (shifted8 r out c).ccr :=
  putNZVC_flagsKept _ _ _ _ _

theorem shifted16_flagsKept (r : Word) (out : Bool) : FlagsKept [.n, .z, .v, .c] c (shifted16 r out c).ccr :=
  putNZVC_flagsKept _ _ _ _ _

theorem decimalAdjust_flagsKept (x : Byte) (v : Bool) : FlagsKept [.n, .z, .v, .c] c (decimalAdjust x c v).ccr :=
  putNZVC_flagsKept _ _ _ _ _

theorem multiply_flagsKept (x y : Byte) : FlagsKept [.c] c (multiply x y c).ccr := putFlag_flagsKept _ _ _

theorem complement8_flagsKept (x : Byte) : FlagsKept [.n, .z, .v, .c] c (complement8 x c).ccr := by
  intro f hf
  simp only [List.mem_cons, List.not_mem_nil, or_false, not_or] at hf
  simp [complement8, getFlag_nz8, hf, Ne.symm hf.2.2.2]

end Writers

theorem integerDivide_flagsKept (n d free : Word) (c : Byte) :
    FlagsKept [.z, .v, .c] c (integerDivide n d free c).ccr := by
  unfold integerDivide
  split
  · exact putZVC_flagsKept _ _ _ _
  · exact putZVC_flagsKept _ _ _ _

theorem fractionalDivide_flagsKept (n d free : Word) (c : Byte) :
    FlagsKept [.z, .v, .c] c (fractionalDivide n d free c).ccr := by
  unfold fractionalDivide
  split
  · exact putZVC_flagsKept _ _ _ _
  · split
    · exact putZVC_flagsKept _ _ _ _
    · exact putZVC_flagsKept _ _ _ _

/-! ## Effects -/

/-- From `s` to `t`: the frame, the run state, the accesses that `acc` has made, and what every instruction keeps. -/
structure Effect (regs : List Reg) (flags : List Flag) (stored : List Word) (acc s t : State) : Prop where
  frame : Frame regs flags stored s t
  sameRun : SameRun s t
  accesses : SameAccesses acc t
  accCfg : acc.cfg = s.cfg
  kept : Kept s t

theorem Effect.cfg (h : Effect regs flags stored acc s u) : u.cfg = acc.cfg := h.kept.cfg.trans h.accCfg.symm

theorem Effect.refl (s : State) : Effect [] [] [] s s s where
  frame := ⟨fun _ _ => rfl, fun _ _ => rfl, fun _ _ => rfl, rfl, rfl, rfl, rfl, rfl⟩
  sameRun := ⟨rfl, rfl⟩
  accesses := ⟨rfl, rfl⟩
  accCfg := rfl
  kept := .refl s

/-- The registers take values: those outside `regs` the ones they had, the CCR one that differs in `flags` alone. -/
theorem Effect.registers (h : Effect regs₀ flags₀ stored acc s u) {a b : Byte} {ix iy sp pc : Word} {ccr : Byte}
    (hr : ∀ q, q ∉ regs → (withRegisters u a b ix iy sp pc ccr).reg q = s.reg q) (hf : FlagsKept flags s.ccr ccr) :
    Effect regs flags stored acc s (withRegisters u a b ix iy sp pc ccr) where
  frame := ⟨hr, hf, h.frame.memory, h.frame.lastReset, h.frame.lines, h.frame.script, h.frame.generation, h.frame.cfg⟩
  sameRun := h.sameRun
  accesses := h.accesses
  accCfg := h.accCfg
  kept := h.kept.trans (kept_of_mem rfl rfl rfl rfl rfl)

/-- Registers that no read or write touches. -/
theorem reg_congr (ha : t.a = s.a) (hb : t.b = s.b) (hx : t.ix = s.ix) (hy : t.iy = s.iy) (hs : t.sp = s.sp) (q : Reg) :
    t.reg q = s.reg q := by
  cases q with
  | a => exact congrArg BitVec.toNat ha
  | b => exact congrArg BitVec.toNat hb
  | ix => exact congrArg BitVec.toNat hx
  | iy => exact congrArg BitVec.toNat hy
  | sp => exact congrArg BitVec.toNat hs

/-- A byte is read. -/
theorem Effect.touch (h : Effect regs flags stored acc s u) (x : Word) :
    Effect regs flags stored (touch x acc) s (touch x u) where
  frame :=
    { registers := fun q hq => (reg_congr (by simp) (by simp) (by simp) (by simp) (by simp) q).trans
        (h.frame.registers q hq)
      ccr := fun f hf => by rw [← h.frame.ccr f hf]; simp [State.flag]
      memory := fun y hy => by rw [memByte_touch, h.frame.memory y hy]
      lastReset := by rw [touch_lastReset, h.frame.lastReset]
      lines := by rw [touch_lines, h.frame.lines]
      script := by rw [touch_script, h.frame.script]
      generation := by rw [touch_generation, h.frame.generation]
      cfg := by rw [touch_cfg, h.frame.cfg] }
  sameRun := ⟨(touch_run u x).trans h.sameRun.1, (touch_lateClear u x).trans h.sameRun.2⟩
  accesses := ⟨touch_io_congr h.cfg h.accesses.1 x, touch_draws_congr h.cfg h.accesses.2 x⟩
  accCfg := (touch_cfg acc x).trans h.accCfg
  kept := h.kept.trans (kept_of_mem (by simp) (by simp) (by simp) (by simp) (by simp))

/-- A byte is written. -/
theorem Effect.store (h : Effect regs flags stored acc s u) (x : Word) (v : Byte) :
    Effect regs flags (stored ++ [x]) (store x v acc) s (store x v u) where
  frame :=
    { registers := fun q hq => (reg_congr (by simp) (by simp) (by simp) (by simp) (by simp) q).trans
        (h.frame.registers q hq)
      ccr := fun f hf => by rw [← h.frame.ccr f hf]; simp [State.flag]
      memory := fun y hy => by
        rw [List.mem_append, List.mem_singleton, not_or] at hy
        rw [memByte_store_ne hy.2, h.frame.memory y hy.1]
      lastReset := by rw [store_lastReset, h.frame.lastReset]
      lines := by rw [store_lines, h.frame.lines]
      script := by rw [store_script, h.frame.script]
      generation := by rw [store_generation, h.frame.generation]
      cfg := by rw [store_cfg, h.frame.cfg] }
  sameRun := ⟨(store_run u x v).trans h.sameRun.1, (store_lateClear u x v).trans h.sameRun.2⟩
  accesses := ⟨store_io_congr h.cfg h.accesses.1 x v, by rw [store_draws, store_draws, h.accesses.2]⟩
  accCfg := (store_cfg acc x v).trans h.accCfg
  kept := h.kept.trans (kept_store x v u)

/-- A free value is used up. -/
theorem Effect.drawn (h : Effect regs flags stored acc s u) : Effect regs flags stored acc.drawn s u.drawn where
  frame :=
    { registers := fun q hq => (reg_congr rfl rfl rfl rfl rfl q).trans (h.frame.registers q hq)
      ccr := h.frame.ccr
      memory := fun y hy => (memByte_congr rfl rfl rfl y).trans (h.frame.memory y hy)
      lastReset := h.frame.lastReset
      lines := h.frame.lines
      script := h.frame.script
      generation := h.frame.generation
      cfg := h.frame.cfg }
  sameRun := h.sameRun
  accesses := ⟨h.accesses.1, congrArg (· + 1) h.accesses.2⟩
  accCfg := h.accCfg
  kept := h.kept.trans (kept_of_mem rfl rfl rfl rfl rfl)

/-- An operand is read, or is immediate. -/
theorem operand8_effect (op : Operand8) (s : State) :
    Effect [] [] [] (afterOperand8 op s) s (afterOperand8 op s) := by
  cases op with
  | imm => exact .refl s
  | mem m => exact (Effect.refl s).touch _

theorem operand16_effect (op : Operand16) (s : State) :
    Effect [] [] [] (afterOperand16 op s) s (afterOperand16 op s) := by
  cases op with
  | imm => exact .refl s
  | mem m => exact ((Effect.refl s).touch _).touch _

/-- An effect on fewer registers and flags is one on more. -/
theorem Effect.mono (h : Effect regs₀ flags₀ stored acc s u) (hr : ∀ q ∈ regs₀, q ∈ regs)
    (hf : ∀ f ∈ flags₀, f ∈ flags) : Effect regs flags stored acc s u where
  frame :=
    { registers := fun q hq => h.frame.registers q fun hq₀ => hq (hr q hq₀)
      ccr := fun f hf' => h.frame.ccr f fun hf₀ => hf' (hf f hf₀)
      memory := h.frame.memory
      lastReset := h.frame.lastReset
      lines := h.frame.lines
      script := h.frame.script
      generation := h.frame.generation
      cfg := h.frame.cfg }
  sameRun := h.sameRun
  accesses := h.accesses
  accCfg := h.accCfg
  kept := h.kept

/-- An instruction with an effect that leaves PC at `pc_next` runs. -/
theorem Effect.runs {i : Instr} {P : State → Prop} (h : Effect regs flags stored acc s t) (he : exec i s = .next t)
    (hpc : t.pc = s.pc) (hP : P t) : Runs i s regs flags stored acc P :=
  ⟨t, he, hP, hpc, h.frame, h.sameRun, h.accesses⟩

/-- An instruction with an effect on no flag jumps to where it leaves PC. -/
theorem Effect.jumps {i : Instr} {target : Word} {P : State → Prop} (h : Effect regs [] stored acc s t)
    (he : exec i s = .next t) (hpc : t.pc = target) (hP : P t) : Jumps i s target regs stored acc P :=
  ⟨t, he, hP, hpc, h.frame, h.sameRun, h.accesses⟩

/-! ### Registers, one at a time -/

/-- The condition codes change. -/
theorem Effect.setCcr (h : Effect regs [] stored acc s u) {c : Byte} (hf : FlagsKept flags s.ccr c) :
    Effect regs flags stored acc s { u with ccr := c } :=
  h.registers (fun q hq => (reg_congr rfl rfl rfl rfl rfl q).trans (h.frame.registers q hq)) hf

/-- PC changes. -/
theorem Effect.setPc (h : Effect regs flags stored acc s u) (pc : Word) :
    Effect regs flags stored acc s { u with pc := pc } :=
  h.registers (fun q hq => (reg_congr rfl rfl rfl rfl rfl q).trans (h.frame.registers q hq)) h.frame.ccr

/-- The registers but the CCR take any values. -/
theorem Effect.anyRegisters (h : Effect regs flags stored acc s u) {a b : Byte} {ix iy sp pc : Word} :
    Effect [.a, .b, .ix, .iy, .sp] flags stored acc s (withRegisters u a b ix iy sp pc u.ccr) :=
  h.registers (fun q hq => by cases q <;> simp at hq) h.frame.ccr

/-- An accumulator changes. -/
theorem Effect.setAcc (h : Effect regs flags stored acc s u) (r : Acc) (v : Byte) (hr : r.reg ∈ regs) :
    Effect regs flags stored acc s (u.setAcc r v) := by
  cases r with
  | a =>
    refine h.registers (fun q hq => ?_) h.frame.ccr
    rw [← h.frame.registers q hq]
    cases q with
    | a => exact absurd hr hq
    | b | ix | iy | sp => rfl
  | b =>
    refine h.registers (fun q hq => ?_) h.frame.ccr
    rw [← h.frame.registers q hq]
    cases q with
    | b => exact absurd hr hq
    | a | ix | iy | sp => rfl

/-- A 16-bit register changes. -/
theorem Effect.setReg16 (h : Effect regs flags stored acc s u) (r : Reg16) (v : Word) (hr : ∀ q ∈ r.regs, q ∈ regs) :
    Effect regs flags stored acc s (u.setReg16 r v) := by
  have hne : ∀ q, q ∉ regs → q ∉ r.regs := fun q hq hqr => hq (hr q hqr)
  cases r with
  | d =>
    refine h.registers (fun q hq => ?_) h.frame.ccr
    rw [← h.frame.registers q hq]
    cases q with
    | a | b => exact absurd (by decide) (hne _ hq)
    | ix | iy | sp => rfl
  | x =>
    refine h.registers (fun q hq => ?_) h.frame.ccr
    rw [← h.frame.registers q hq]
    cases q with
    | ix => exact absurd (by decide) (hne _ hq)
    | a | b | iy | sp => rfl
  | y =>
    refine h.registers (fun q hq => ?_) h.frame.ccr
    rw [← h.frame.registers q hq]
    cases q with
    | iy => exact absurd (by decide) (hne _ hq)
    | a | b | ix | sp => rfl
  | sp =>
    refine h.registers (fun q hq => ?_) h.frame.ccr
    rw [← h.frame.registers q hq]
    cases q with
    | sp => exact absurd (by decide) (hne _ hq)
    | a | b | ix | iy => rfl

/-- A byte is pushed: a store at SP, which is then one lower. -/
theorem Effect.push (h : Effect regs flags stored acc s u) {x : Word} (hx : u.sp = x) (hs : Reg.sp ∈ regs) (v : Byte) :
    Effect regs flags (stored ++ [x]) (Machine.store x v acc) s (push v u) := by
  subst hx
  exact (h.store u.sp v).setReg16 .sp (u.sp - 1) (by simpa [Reg16.regs] using hs)

/-- A byte is pulled: SP goes up, and the byte there is read. -/
theorem Effect.pulled (h : Effect regs flags stored acc s u) {x : Word} (hx : u.sp + 1 = x) (hs : Reg.sp ∈ regs) :
    Effect regs flags stored (Machine.touch x acc) s (pulled u) := by
  subst hx
  exact (h.touch (u.sp + 1)).setReg16 .sp (u.sp + 1) (by simpa [Reg16.regs] using hs)

/-! ## The shapes of instruction -/

section Shapes

variable (s)

theorem accOp_effect (r : Acc) {f : Byte → Byte → Byte → Res8} (hf : ∀ x y c, FlagsKept flags c (f x y c).ccr)
    (op : Operand8) : Effect [r.reg] flags [] (afterOperand8 op s) s (accOp r f op s) :=
  (((operand8_effect op s).mono (by simp) (by simp)).setAcc r _ List.mem_cons_self).setCcr (hf _ _ _)

theorem accTest_effect (r : Acc) {f : Byte → Byte → Byte → Byte} (hf : ∀ x y c, FlagsKept flags c (f x y c))
    (op : Operand8) : Effect [] flags [] (afterOperand8 op s) s (accTest r f op s) :=
  (operand8_effect op s).setCcr (hf _ _ _)

/-- A one-operand operation on an accumulator, after free values were used up or not. -/
theorem Effect.accUnary {s : State} (h : Effect [] [] [] acc s u) (hc : u.ccr = s.ccr) (r : Acc) {f : Byte → Byte → Res8}
    (hf : ∀ x c, FlagsKept flags c (f x c).ccr) : Effect [r.reg] flags [] acc s (accUnary r f u) := by
  refine ((h.mono (by simp) (by simp)).setAcc r _ List.mem_cons_self).setCcr ?_
  rw [← hc]
  exact hf _ _

theorem accUnary_effect (r : Acc) {f : Byte → Byte → Res8} (hf : ∀ x c, FlagsKept flags c (f x c).ccr) :
    Effect [r.reg] flags [] s s (accUnary r f s) := (Effect.refl s).accUnary rfl r hf

theorem readModifyWrite_effect (m : Mem) {f : Byte → Byte → Res8} (hf : ∀ x c, FlagsKept flags c (f x c).ccr) :
    Effect [] flags [effAddr m s]
      (store (effAddr m s) (f (peek (effAddr m s) s) s.ccr).val (touch (effAddr m s) s)) s (readModifyWrite m f s) :=
  (((Effect.refl s).touch _).setCcr (hf _ _)).store _ _

theorem regOp_effect (r : Reg16) {f : Word → Word → Byte → Res16} (hf : ∀ x y c, FlagsKept flags c (f x y c).ccr)
    (op : Operand16) : Effect r.regs flags [] (afterOperand16 op s) s (regOp r f op s) :=
  (((operand16_effect op s).mono (by simp) (by simp)).setReg16 r _ fun _ => id).setCcr (hf _ _ _)

theorem regCompare_effect (r : Reg16) (op : Operand16) :
    Effect [] [.n, .z, .v, .c] [] (afterOperand16 op s) s (regCompare r op s) :=
  (operand16_effect op s).setCcr (sub16_flagsKept _ _ _)

theorem accLoad_effect (r : Acc) (op : Operand8) :
    Effect [r.reg] [.n, .z, .v] [] (afterOperand8 op s) s (accLoad r op s) :=
  (((operand8_effect op s).mono (by simp) (by simp)).setAcc r _ List.mem_cons_self).setCcr (putNZV_flagsKept _ _ _ _)

theorem accStore_effect (r : Acc) (m : Mem) :
    Effect [] [.n, .z, .v] [effAddr m s] (store (effAddr m s) (s.acc r) s) s (accStore r m s) :=
  ((Effect.refl s).setCcr (putNZV_flagsKept _ _ _ _)).store _ _

theorem regLoad_effect (r : Reg16) (op : Operand16) :
    Effect r.regs [.n, .z, .v] [] (afterOperand16 op s) s (regLoad r op s) :=
  (((operand16_effect op s).mono (by simp) (by simp)).setReg16 r _ fun _ => id).setCcr (putNZV_flagsKept _ _ _ _)

theorem regStore_effect (r : Reg16) (m : Mem) :
    Effect [] [.n, .z, .v] [effAddr m s, effAddr m s + 1] (store16 (effAddr m s) (s.reg16 r) s) s (regStore r m s) :=
  (((Effect.refl s).setCcr (putNZV_flagsKept _ _ _ _)).store _ _).store _ _

theorem setReg16_effect (r : Reg16) (v : Word) {c : Byte} (hf : FlagsKept flags s.ccr c) :
    Effect r.regs flags [] s s { s.setReg16 r v with ccr := c } :=
  (((Effect.refl s).mono (by simp) (by simp)).setReg16 r v fun _ => id).setCcr hf

theorem setAcc_effect (r : Acc) (v : Byte) {c : Byte} (hf : FlagsKept flags s.ccr c) :
    Effect [r.reg] flags [] s s { s.setAcc r v with ccr := c } :=
  (((Effect.refl s).mono (by simp) (by simp)).setAcc r v List.mem_cons_self).setCcr hf

theorem ccr_effect {c : Byte} (hf : FlagsKept flags s.ccr c) : Effect [] flags [] s s { s with ccr := c } :=
  (Effect.refl s).setCcr hf

theorem indexStep_effect (r : Reg16) (amount : Word) : Effect r.regs [.z] [] s s (indexStep r amount s) :=
  setReg16_effect s r _ (putZ_flagsKept _ _)

theorem push_effect (v : Byte) : Effect [.sp] [] [s.sp] (store s.sp v s) s (push v s) :=
  ((Effect.refl s).mono (by simp) (by simp)).push rfl List.mem_cons_self v

theorem pushWord_effect (v : Word) :
    Effect [.sp] [] [s.sp, s.sp - 1] (store (s.sp - 1) (hiByte v) (store s.sp (loByte v) s)) s (pushWord v s) :=
  (push_effect s (loByte v)).push (push_sp s _) List.mem_cons_self (hiByte v)

theorem pulled_effect : Effect [.sp] [] [] (touch (s.sp + 1) s) s (pulled s) :=
  ((Effect.refl s).mono (by simp) (by simp)).pulled rfl List.mem_cons_self

theorem pulledWord_effect : Effect [.sp] [] [] (touch16 (s.sp + 1) s) s (pulledWord s) :=
  (pulled_effect s).pulled (by rw [pulled_sp]) List.mem_cons_self

theorem pullAcc_effect (r : Acc) :
    Effect [r.reg, .sp] [] [] (touch (s.sp + 1) s) s ((pulled s).setAcc r (pullValue s)) :=
  ((pulled_effect s).mono (by simp) (by simp)).setAcc r _ List.mem_cons_self

theorem pullReg_effect (r : Reg16) :
    Effect (r.regs ++ [.sp]) [] [] (touch16 (s.sp + 1) s) s (pullReg r s) :=
  ((pulledWord_effect s).mono (by simp) (by simp)).setReg16 r _ fun _ => List.mem_append_left _

theorem exchangeD_effect (r : Reg16) : Effect ([.a, .b] ++ r.regs) [] [] s s (exchangeD r s) :=
  (((Effect.refl s).mono (by simp) (by simp)).setReg16 .d _ fun _ => List.mem_append_left r.regs).setReg16 r _
    fun _ => List.mem_append_right _

theorem divideD_effect {f : Word → Word → Word → Byte → DivRes} (hf : ∀ n d k c, FlagsKept flags c (f n d k c).ccr) :
    Effect [.a, .b, .ix] flags [] s.drawn s (divideD f s) :=
  ((((Effect.refl s).drawn.mono (by simp) (by simp)).setReg16 .d _ (by decide)).setReg16 .x _ (by decide)).setCcr
    (hf _ _ _ _)

theorem branchIf_effect (taken : Bool) (rr : Byte) : Effect [] [] [] s s (branchIf taken rr s) := (Effect.refl s).setPc _

theorem bitBranch_effect (taken : Bool) (x : Word) (rr : Byte) :
    Effect [] [] [] (touch x s) s (branchIf taken rr (touch x s)) := ((Effect.refl s).touch x).setPc _

theorem callTo_effect (target : Word) :
    Effect [.sp] [] [s.sp, s.sp - 1] (store (s.sp - 1) (hiByte s.pc) (store s.sp (loByte s.pc) s)) s (callTo target s) :=
  (pushWord_effect s s.pc).setPc target

end Shapes

end Sys2Proof.Machine

/-!
PROOFS. Every instruction, and every step.

All but seven instructions are ordinary: they keep the run state, the mark of a CLI or TAP, and I, X and S
(`exec_ordinary`, one case for each shape of Machine/Operands). The seven are taken one by one. What a step keeps follows
from `step_cases` (Laws/Step).
-/

namespace Sys2Proof.Machine

variable {s t u acc : State} {regs : List Reg} {flags : List Flag} {stored : List Word} {i : Instr}

/-! ## Every instruction -/

/-- What all instructions but the seven of `controlInstrs` keep. -/
structure Ordinary (s t : State) : Prop where
  kept : Kept s t
  sameRun : SameRun s t
  masks : ∀ f ∈ [Flag.i, .x, .s], t.flag f = s.flag f

theorem Effect.ordinary (h : Effect regs flags stored acc s t) (hm : ∀ f ∈ [Flag.i, .x, .s], f ∉ flags) :
    Ordinary s t := ⟨h.kept, h.sameRun, fun f hf => h.frame.ccr f (hm f hf)⟩

/-- The instructions that write I, X or S, or that change the run state. -/
def controlInstrs : List Instr := [.sei, .cli, .tap, .rti, .swi, .stop, .wai]

theorem exec_ordinary (i : Instr) (s : State) (hi : i ∉ controlInstrs) :
    ∃ t, exec i s = .next t ∧ Ordinary s t := by
  cases i with
  | aba | adca op | adcb op | adda op | addb op =>
    exact ⟨_, rfl, Effect.ordinary (accOp_effect s _ (fun _ _ _ => add8_flagsKept _ _ _ _) _) (by decide)⟩
  | sba | sbca op | sbcb op | suba op | subb op =>
    exact ⟨_, rfl, Effect.ordinary (accOp_effect s _ (fun _ _ _ => sub8_flagsKept _ _ _ _) _) (by decide)⟩
  | anda op | andb op | eora op | eorb op | oraa op | orab op =>
    exact ⟨_, rfl, Effect.ordinary (accOp_effect s _ (fun _ _ _ => nz8_flagsKept _ _) _) (by decide)⟩
  | cmpa op | cmpb op =>
    exact ⟨_, rfl, Effect.ordinary (accTest_effect s _ (fun _ _ _ => sub8_flagsKept _ _ _ _) _) (by decide)⟩
  | bita op | bitb op =>
    exact ⟨_, rfl, Effect.ordinary (accTest_effect s _ (fun _ _ _ => nz8_flagsKept _ _) _) (by decide)⟩
  | addd op =>
    exact ⟨_, rfl, Effect.ordinary (regOp_effect s _ (fun _ _ _ => add16_flagsKept _ _ _) _) (by decide)⟩
  | subd op =>
    exact ⟨_, rfl, Effect.ordinary (regOp_effect s _ (fun _ _ _ => sub16_flagsKept _ _ _) _) (by decide)⟩
  | cpd op | cpx op | cpy op => exact ⟨_, rfl, Effect.ordinary (regCompare_effect s _ op) (by decide)⟩
  | daa =>
    exact ⟨_, rfl,
      Effect.ordinary ((Effect.refl s).drawn.accUnary rfl _ fun _ _ => decimalAdjust_flagsKept _ _ _) (by decide)⟩
  | deca | decb =>
    exact ⟨_, rfl, Effect.ordinary (accUnary_effect s _ fun x c => decrement8_flagsKept c x) (by decide)⟩
  | inca | incb =>
    exact ⟨_, rfl, Effect.ordinary (accUnary_effect s _ fun x c => increment8_flagsKept c x) (by decide)⟩
  | nega | negb =>
    exact ⟨_, rfl, Effect.ordinary (accUnary_effect s _ fun _ _ => sub8_flagsKept _ _ _ _) (by decide)⟩
  | asra | asrb | lsla | lslb | lsra | lsrb | rola | rolb | rora | rorb =>
    exact ⟨_, rfl, Effect.ordinary (accUnary_effect s _ fun _ _ => shifted8_flagsKept _ _ _) (by decide)⟩
  | coma | comb =>
    exact ⟨_, rfl, Effect.ordinary (accUnary_effect s _ fun x c => complement8_flagsKept c x) (by decide)⟩
  | dec m =>
    exact ⟨_, rfl, Effect.ordinary (readModifyWrite_effect s m fun x c => decrement8_flagsKept c x) (by decide)⟩
  | inc m =>
    exact ⟨_, rfl, Effect.ordinary (readModifyWrite_effect s m fun x c => increment8_flagsKept c x) (by decide)⟩
  | bclr m mm =>
    exact ⟨_, rfl, Effect.ordinary (readModifyWrite_effect s m fun x c => bitClear8_flagsKept c mm x) (by decide)⟩
  | bset m mm =>
    exact ⟨_, rfl, Effect.ordinary (readModifyWrite_effect s m fun x c => bitSet8_flagsKept c mm x) (by decide)⟩
  | neg m =>
    exact ⟨_, rfl, Effect.ordinary (readModifyWrite_effect s m fun _ _ => sub8_flagsKept _ _ _ _) (by decide)⟩
  | asr m | lsl m | lsr m | rol m | ror m =>
    exact ⟨_, rfl, Effect.ordinary (readModifyWrite_effect s m fun _ _ => shifted8_flagsKept _ _ _) (by decide)⟩
  | com m =>
    exact ⟨_, rfl, Effect.ordinary (readModifyWrite_effect s m fun x c => complement8_flagsKept c x) (by decide)⟩
  | idiv => exact ⟨_, rfl, Effect.ordinary (divideD_effect s integerDivide_flagsKept) (by decide)⟩
  | fdiv => exact ⟨_, rfl, Effect.ordinary (divideD_effect s fractionalDivide_flagsKept) (by decide)⟩
  | mul => exact ⟨_, rfl, Effect.ordinary (setReg16_effect s .d _ (multiply_flagsKept _ _ _)) (by decide)⟩
  | lsld | lsrd => exact ⟨_, rfl, Effect.ordinary (setReg16_effect s .d _ (shifted16_flagsKept _ _ _)) (by decide)⟩
  | tst m => exact ⟨_, rfl, Effect.ordinary (((Effect.refl s).touch _).setCcr (test8_flagsKept _ _)) (by decide)⟩
  | cba => exact ⟨_, rfl, Effect.ordinary (ccr_effect s (sub8_flagsKept _ _ _ _)) (by decide)⟩
  | tsta | tstb => exact ⟨_, rfl, Effect.ordinary (ccr_effect s (test8_flagsKept _ _)) (by decide)⟩
  | clr m => exact ⟨_, rfl, Effect.ordinary ((ccr_effect s (clearFlags_flagsKept _)).store _ _) (by decide)⟩
  | clra => exact ⟨_, rfl, Effect.ordinary (setAcc_effect s .a _ (clearFlags_flagsKept _)) (by decide)⟩
  | clrb => exact ⟨_, rfl, Effect.ordinary (setAcc_effect s .b 0x00#8 (clearFlags_flagsKept _)) (by decide)⟩
  | tba => exact ⟨_, rfl, Effect.ordinary (setAcc_effect s .a _ (nz8_flagsKept _ _)) (by decide)⟩
  | tab => exact ⟨_, rfl, Effect.ordinary (setAcc_effect s .b s.a (nz8_flagsKept _ _)) (by decide)⟩
  | ldaa op | ldab op => exact ⟨_, rfl, Effect.ordinary (accLoad_effect s _ op) (by decide)⟩
  | ldd op | lds op | ldx op | ldy op => exact ⟨_, rfl, Effect.ordinary (regLoad_effect s _ op) (by decide)⟩
  | staa m | stab m => exact ⟨_, rfl, Effect.ordinary (accStore_effect s _ m) (by decide)⟩
  | std m | sts m | stx m | sty m => exact ⟨_, rfl, Effect.ordinary (regStore_effect s _ m) (by decide)⟩
  | inx | iny | dex | dey => exact ⟨_, rfl, Effect.ordinary (indexStep_effect s _ _) (by decide)⟩
  | abx | aby | ins | des | tsx | tsy | txs | tys | tpa | jmp m | nop =>
    exact ⟨_, rfl, Effect.ordinary (Effect.refl s).anyRegisters (by decide)⟩
  | psha | pshb => exact ⟨_, rfl, Effect.ordinary (push_effect s _) (by decide)⟩
  | pshx | pshy => exact ⟨_, rfl, Effect.ordinary (pushWord_effect s _) (by decide)⟩
  | pula => exact ⟨_, rfl, Effect.ordinary (pullAcc_effect s .a) (by decide)⟩
  | pulb => exact ⟨_, rfl, Effect.ordinary (pullAcc_effect s .b) (by decide)⟩
  | pulx | puly => exact ⟨_, rfl, Effect.ordinary (pullReg_effect s _) (by decide)⟩
  | xgdx | xgdy => exact ⟨_, rfl, Effect.ordinary (exchangeD_effect s _) (by decide)⟩
  | bra rr | brn rr | bhi rr | bls rr | bcc rr | bcs rr | bne rr | beq rr | bvc rr | bvs rr | bpl rr | bmi rr | bge rr
  | blt rr | bgt rr | ble rr => exact ⟨_, rfl, Effect.ordinary (branchIf_effect s _ rr) (by decide)⟩
  | brclr m mm rr | brset m mm rr => exact ⟨_, rfl, Effect.ordinary (bitBranch_effect s _ _ rr) (by decide)⟩
  | bsr rr | jsr m => exact ⟨_, rfl, Effect.ordinary (callTo_effect s _) (by decide)⟩
  | rts => exact ⟨_, rfl, Effect.ordinary ((pulledWord_effect s).setPc _) (by decide)⟩
  | clc | sec | clv | sev => exact ⟨_, rfl, Effect.ordinary (ccr_effect s (putFlag_flagsKept _ _ _)) (by decide)⟩
  | sei | cli | tap | rti | swi | stop | wai => exact absurd (by decide) hi

/-! ### The seven others -/

theorem exec_stop_of_s (h : s.flag .s = true) : exec .stop s = .next s := by simp only [exec, execStop, h, if_true]

theorem exec_stop_of_not_s (h : s.flag .s = false) : exec .stop s = .next { s with run := .stopped } := by
  simp only [exec, execStop, h, Bool.false_eq_true, if_false]

theorem exec_wai (s : State) : exec .wai s = .next { stackFrame s.pc s with run := .waiting } := rfl

theorem exec_tap (s : State) :
    exec .tap s = .next { s with ccr := loadCcr s.ccr s.a, lateClear := s.flag .i && !getFlag s.a .i } := rfl

theorem exec_cli (s : State) : exec .cli s = .next { s with ccr := putFlag s.ccr .i false, lateClear := s.flag .i } :=
  rfl

theorem exec_sei (s : State) : exec .sei s = .next { s with ccr := putFlag s.ccr .i true } := rfl

theorem kept_returnFromInterrupt (s : State) : Kept s (returnFromInterrupt s) := by
  obtain ⟨_, _, _, _, _, _, _, _, _, -, hrti⟩ := returnFromInterrupt_eq s
  rw [hrti]
  exact (kept_touchBytes ..).trans (kept_withRegisters ..)

theorem sameRun_returnFromInterrupt (s : State) : SameRun s (returnFromInterrupt s) := by
  obtain ⟨_, _, _, _, _, _, _, _, _, -, hrti⟩ := returnFromInterrupt_eq s
  rw [hrti]
  exact sameRun_withRegisters_touchBytes ..

/-- Every instruction goes on, and keeps what `Kept` lists. -/
theorem exec_kept (i : Instr) (s : State) : ∃ t, exec i s = .next t ∧ Kept s t := by
  by_cases hi : i ∈ controlInstrs
  · simp only [controlInstrs, List.mem_cons, List.not_mem_nil, or_false] at hi
    obtain rfl | rfl | rfl | rfl | rfl | rfl | rfl := hi
    · exact ⟨_, exec_sei s, kept_of_mem rfl rfl rfl rfl rfl⟩
    · exact ⟨_, exec_cli s, kept_of_mem rfl rfl rfl rfl rfl⟩
    · exact ⟨_, exec_tap s, kept_of_mem rfl rfl rfl rfl rfl⟩
    · exact ⟨_, exec_rti s, kept_returnFromInterrupt s⟩
    · exact ⟨_, exec_swi s, kept_takeInterrupt ..⟩
    · cases hs : s.flag .s with
      | true => exact ⟨_, exec_stop_of_s hs, .refl s⟩
      | false => exact ⟨_, exec_stop_of_not_s hs, kept_setRun s _⟩
    · exact ⟨_, exec_wai s, (kept_stackFrame s.pc s).trans (kept_setRun _ _)⟩
  · obtain ⟨t, ht, ho⟩ := exec_ordinary i s hi
    exact ⟨t, ht, ho.kept⟩

theorem kept_of_exec (h : exec i s = .next t) : Kept s t := by
  obtain ⟨u, hu, hk⟩ := exec_kept i s
  rwa [Host.Outcome.next.inj (h.symm.trans hu)]

/-- What an instruction outside `controlInstrs` keeps. -/
theorem ordinary_of_exec (hi : i ∉ controlInstrs) (h : exec i s = .next t) : Ordinary s t := by
  obtain ⟨u, hu, ho⟩ := exec_ordinary i s hi
  rwa [Host.Outcome.next.inj (h.symm.trans hu)]

/-! ### I, X and S -/

/-- The mask bits after RTI (10_state.md R36). -/
theorem returnFromInterrupt_flag (s : State) (f : Flag) :
    (returnFromInterrupt s).flag f =
      if f = .x then s.flag .x && getFlag (peek (s.sp + 1) s) .x else getFlag (peek (s.sp + 1) s) f := by
  rw [State.flag, returnFromInterrupt_ccr, getFlag_loadCcr]
  rfl

theorem stackFrame_flag (ret : Word) (s : State) (f : Flag) : (stackFrame ret s).flag f = s.flag f :=
  congrArg (getFlag · f) (stackFrame_ccr s ret)

/-- What the instructions may do to I, X and S, with the values TAP and RTI give X. -/
theorem exec_masks (h : exec i s = .next t) :
    (t.flag .i ≠ s.flag .i → i ∈ [Instr.sei, .swi, .cli, .tap, .rti]) ∧
    (t.flag .x ≠ s.flag .x → s.flag .x = true ∧ t.flag .x = false ∧
      (i = .tap ∧ getFlag s.a .x = false ∨ i = .rti ∧ getFlag (peek (s.sp + 1) s) .x = false)) ∧
    (t.flag .s ≠ s.flag .s → i ∈ [Instr.tap, .rti]) := by
  by_cases hi : i ∈ controlInstrs
  · simp only [controlInstrs, List.mem_cons, List.not_mem_nil, or_false] at hi
    have hnext : ∀ {u}, exec i s = .next u → t = u := fun hu => Host.Outcome.next.inj (h.symm.trans hu)
    obtain rfl | rfl | rfl | rfl | rfl | rfl | rfl := hi
    · simp [hnext (exec_sei s), State.flag]
    · simp [hnext (exec_cli s), State.flag]
    · simp +contextual [hnext (exec_tap s), State.flag]
    · simp +contextual [hnext (exec_rti s), returnFromInterrupt_flag]
    · simp [hnext (exec_swi s), takeInterrupt_flag]
    · cases hs : s.flag .s with
      | true => simp [hnext (exec_stop_of_s hs), hs]
      | false => simpa [hnext (exec_stop_of_not_s hs), State.flag] using hs
    · simp [hnext (exec_wai s), State.flag]
  · have ho := ordinary_of_exec hi h
    exact ⟨fun hne => absurd (ho.masks .i (by decide)) hne, fun hne => absurd (ho.masks .x (by decide)) hne,
      fun hne => absurd (ho.masks .s (by decide)) hne⟩

/-! ### The run state and the mark of a CLI or TAP -/

/-- From a running state without the mark, an instruction sets the mark only as it clears I, and stops the CPU only while
S is 0. -/
theorem exec_mode (hlate : s.lateClear = false) (hrun : s.run = .running) (h : exec i s = .next t) :
    (t.lateClear = true → t.flag .i = false ∧ t.run = .running) ∧ (t.run = .stopped → t.flag .s = false) := by
  have hsame : ∀ {u}, SameRun s u → (u.lateClear = true → u.flag .i = false ∧ u.run = .running) ∧
      (u.run = .stopped → u.flag .s = false) := fun hu => by simp [hu.1, hu.2, hlate, hrun]
  by_cases hi : i ∈ controlInstrs
  · simp only [controlInstrs, List.mem_cons, List.not_mem_nil, or_false] at hi
    have hnext : ∀ {u}, exec i s = .next u → t = u := fun hu => Host.Outcome.next.inj (h.symm.trans hu)
    obtain rfl | rfl | rfl | rfl | rfl | rfl | rfl := hi
    · rw [hnext (exec_sei s)]
      exact hsame ⟨rfl, rfl⟩
    · simp [hnext (exec_cli s), State.flag, hrun]
    · simp +contextual [hnext (exec_tap s), State.flag, hrun]
    · rw [hnext (exec_rti s)]
      exact hsame (sameRun_returnFromInterrupt s)
    · rw [hnext (exec_swi s)]
      exact hsame ⟨(takeInterrupt_run ..).trans hrun.symm, takeInterrupt_lateClear ..⟩
    · cases hs : s.flag .s with
      | true =>
        rw [hnext (exec_stop_of_s hs)]
        exact hsame ⟨rfl, rfl⟩
      | false =>
        rw [hnext (exec_stop_of_not_s hs)]
        exact ⟨fun hl => absurd (hl.symm.trans hlate) (by decide), fun _ => hs⟩
    · simp [hnext (exec_wai s), hlate]
  · exact hsame (ordinary_of_exec hi h).sameRun

/-- Settles O8: every instruction goes on (`exec_kept`), and so does every event of a step. -/
theorem nothingStopsTheMachine : Obligations.NothingStopsTheMachine := by
  have hexec : ∀ i s, ∃ t, exec i s = .next t := fun i s => (exec_kept i s).imp fun _ h => h.1
  refine ⟨hexec, fun s => ?_⟩
  unfold step fetchAndExecute
  split
  case h_6 =>
    split
    · exact hexec _ _
    · exact ⟨_, rfl⟩
  all_goals exact ⟨_, rfl⟩

/-! ## Every step -/

theorem kept_fetched (s : State) : Kept s (fetched s) :=
  (kept_touchBytes ..).trans (kept_of_mem rfl rfl rfl rfl rfl)

theorem kept_illegalOpcodeTrap (start : Word) (s : State) : Kept s (illegalOpcodeTrap start s) := by
  obtain ⟨ret, hret⟩ := illegalOpcodeTrap_eq start s
  rw [hret]
  exact kept_takeInterrupt ..

/-- A step is a reset, or keeps what an instruction keeps, once the boundary has sampled the lines. -/
theorem step_kept (h : step s = .next t) :
    (∃ cause, s.event = .reset cause ∧ t = resetSequence cause s.atBoundary) ∨
      (∀ cause, s.event ≠ .reset cause) ∧ Kept s.atBoundary t := by
  obtain ⟨cause, he, rfl⟩ | ⟨vector, setX, he, rfl⟩ | ⟨vector, setX, he, rfl⟩ | ⟨he, rfl⟩ | ⟨he, rfl⟩ |
    ⟨he, ⟨i, rest, -, hx⟩ | ⟨e, -, rfl⟩⟩ := step_cases h
  · exact .inl ⟨cause, he, rfl⟩
  · exact .inr ⟨by simp [he], kept_takeInterrupt ..⟩
  · exact .inr ⟨by simp [he], kept_enterVector ..⟩
  · exact .inr ⟨by simp [he], kept_setRun ..⟩
  · exact .inr ⟨by simp [he], .refl _⟩
  · exact .inr ⟨by simp [he], (kept_fetched _).trans (kept_of_exec hx)⟩
  · exact .inr ⟨by simp [he], (kept_fetched _).trans (kept_illegalOpcodeTrap ..)⟩

/-! ### What a reset keeps -/

section Reset

variable (cause : ResetCause) (s : State)

theorem resetSequence_cfg : (resetSequence cause s).cfg = s.cfg := by
  rw [resetSequence_eq]
  exact (touch16_cfg ..).trans (resetCleared_cfg cause s)

theorem resetSequence_lines : (resetSequence cause s).lines = { s.lines with reset := none } := by
  rw [resetSequence_eq]
  exact touch16_lines ..

theorem resetSequence_script : (resetSequence cause s).script = s.script := by
  rw [resetSequence_eq]
  refine (touch16_script ..).trans ?_
  unfold resetCleared
  split <;> rfl

theorem resetSequence_run : (resetSequence cause s).run = .running := by
  rw [resetSequence_eq]
  exact touch16_run ..

theorem resetSequence_lateClear : (resetSequence cause s).lateClear = false := by
  rw [resetSequence_eq]
  exact touch16_lateClear ..

theorem resetSequence_lastReset : (resetSequence cause s).lastReset = cause := by
  rw [resetSequence_eq]
  exact touch16_lastReset ..

theorem resetSequence_ccr :
    (resetSequence cause s).ccr = 0xD0#8 ||| ((Config.draw (s.draws + 5)).setWidth 8 &&& 0x2F#8) := by
  rw [resetSequence_eq]
  exact touch16_ccr ..

/-- A reset sets I, X and S and draws the other five flags (10_state.md R45). -/
theorem resetSequence_flag (f : Flag) :
    (resetSequence cause s).flag f =
      if f = .i ∨ f = .x ∨ f = .s then true else getFlag ((Config.draw (s.draws + 5)).setWidth 8) f := by
  rw [State.flag, resetSequence_ccr]
  cases f <;> simp [getFlag, flagBit]

theorem resetSequence_wf (h : Memory.wf s.mem = true) : Memory.wf (resetSequence cause s).mem = true := by
  have hmem : (resetSequence cause s).mem = (resetCleared cause s).mem := by
    rw [resetSequence_eq]
    exact touch16_mem ..
  rw [hmem]
  unfold resetCleared
  split
  · exact h
  · exact forgetRam_wf h

end Reset

/-! ### The invariants -/

/-- Settles O11: a reset forgets RAM alone (`resetCleared_memByte`), and everything else is `Kept`. -/
theorem stepKeepsRomAndConfiguration : Obligations.StepKeepsRomAndConfiguration := by
  intro s t h
  obtain ⟨cause, -, rfl⟩ | ⟨-, hk⟩ := step_kept h
  · refine ⟨(resetSequence_cfg ..).trans atBoundary_cfg, fun x hx => ?_⟩
    rw [resetSequence_memByte, resetCleared_memByte _ _ _ (by rwa [atBoundary_kind]), atBoundary_memByte]
  · exact ⟨hk.cfg.trans atBoundary_cfg,
      fun x hx => (hk.memory x (by rwa [atBoundary_kind])).trans (atBoundary_memByte x)⟩

/-- Settles O12: only a reset writes the lines, and it writes its own. -/
theorem takingARequestDoesNotWithdrawIt : Obligations.TakingARequestDoesNotWithdrawIt := by
  intro s t h
  obtain ⟨cause, he, rfl⟩ | ⟨hne, hk⟩ := step_kept h
  · rw [he]
    exact ⟨resetSequence_script .., resetSequence_lines ..⟩
  · refine ⟨hk.script, ?_⟩
    cases he : s.event with
    | reset cause => exact absurd he (hne cause)
    | interrupt | wake | resume | idle | execute => exact hk.lines

/-- Settles O9: memory by `Kept`, and the run state and the mark case by case of the step; the boundary has used the mark
up, so that an instruction begins without it (`exec_mode`). -/
theorem stepKeepsTheInvariant : Obligations.StepKeepsTheInvariant := by
  intro s t hs h
  have hb : Memory.wf s.atBoundary.mem = true := by rw [atBoundary_mem]; exact hs.memory
  have hmem : Memory.wf t.mem = true := by
    obtain ⟨cause, -, rfl⟩ | ⟨-, hk⟩ := step_kept h
    · exact resetSequence_wf cause _ hb
    · exact hk.wf hb
  have hrunning : ∀ {u : State}, Memory.wf u.mem = true → u.lateClear = false → u.run = .running → u.Inv :=
    fun hm hl hr => ⟨hm, by simp [hl], by simp [hr]⟩
  obtain ⟨cause, he, rfl⟩ | ⟨vector, setX, he, rfl⟩ | ⟨vector, setX, he, rfl⟩ | ⟨he, rfl⟩ | ⟨he, rfl⟩ |
    ⟨he, ⟨i, rest, -, hx⟩ | ⟨e, -, rfl⟩⟩ := step_cases h
  · exact hrunning hmem (resetSequence_lateClear ..) (resetSequence_run ..)
  · exact hrunning hmem (takeInterrupt_lateClear ..) (takeInterrupt_run ..)
  · exact hrunning hmem (enterVector_lateClear ..) (enterVector_run ..)
  · exact hrunning hmem rfl rfl
  · exact ⟨hmem, by simp, fun hstop => by rw [atBoundary_flag]; exact hs.stopped (by rwa [atBoundary_run] at hstop)⟩
  · have hlate : (fetched s.atBoundary).lateClear = false := by rw [fetched_lateClear, atBoundary_lateClear]
    have hrun : (fetched s.atBoundary).run = .running := by
      rw [fetched_run, atBoundary_run, run_of_event_execute he]
    obtain ⟨hl, hstop⟩ := exec_mode hlate hrun hx
    exact ⟨hmem, hl, hstop⟩
  · obtain ⟨ret, hret⟩ := illegalOpcodeTrap_eq s.pc (fetched s.atBoundary)
    rw [hret] at hmem ⊢
    exact hrunning hmem ((takeInterrupt_lateClear ..).trans (fetched_lateClear ..)) (takeInterrupt_run ..)

/-- Settles O10. -/
theorem resetStateHasTheInvariant : Obligations.ResetStateHasTheInvariant :=
  ⟨reset_memory_wf, by simp [State.reset], by simp [State.reset]⟩

/-- Settles O27: the masks and S are bits 4, 6 and 7 of 0xD0. -/
theorem resetStateHasTheMasksSet : Obligations.ResetStateHasTheMasksSet := by
  unfold Obligations.ResetStateHasTheMasksSet
  decide

/-! ### The mask bits -/

/-- Settles O14. -/
theorem maskBitsChangeOnlyByTheListedInstructions : Obligations.MaskBitsChangeOnlyByTheListedInstructions := by
  intro i s t h
  obtain ⟨hi, hx, hs⟩ := exec_masks h
  refine ⟨hi, fun hne => ?_, hs⟩
  obtain ⟨-, ht, ⟨rfl, -⟩ | ⟨rfl, -⟩⟩ := hx hne
  · exact ⟨by decide, ht⟩
  · exact ⟨by decide, ht⟩

/-- Only XIRQ sets X on its entry, and it is recognised only while X is 0 (60_exceptions.md R334, R339). -/
theorem event_of_setX {vector : Word} (h : s.event = .interrupt vector true ∨ s.event = .wake vector true) :
    vector = xirqVector ∧ s.flag .x = false := by
  have hx : (sample s).flag .x = s.flag .x := congrArg (getFlag · .x) (sample_ccr s)
  unfold State.event recognise at h
  rw [hx] at h
  cases hf : s.flag .x with
  | false => grind
  | true => grind

end Sys2Proof.Machine

/-!
PROOFS. What a boundary brings (60_exceptions.md R334, R352) and how I, X and S move in a step (10_state.md R36, R37).
-/

namespace Sys2Proof.Machine

variable {s t : State} {i : Instr}

/-! ## The mask bits in a step -/

/-- How a step can change X: by a reset, by an entry or a wake-up through a vector, or by an instruction. -/
theorem step_x_cases (h : step s = .next t) :
    (∃ cause, s.event = .reset cause ∧ t.flag .x = true) ∨
    (∃ vector setX, (s.event = .interrupt vector setX ∨ s.event = .wake vector setX) ∧
      t.flag .x = (setX || s.flag .x)) ∨
    t.flag .x = s.flag .x ∨
    (s.event = .execute ∧ s.flag .x = true ∧ t.flag .x = false ∧
      ∃ i rest, decode s.cfg.opcodeMap (fetchBytes s.atBoundary) = .ok (i, rest) ∧
        (i = .tap ∧ getFlag s.a .x = false ∨
          i = .rti ∧ getFlag (peek (s.sp + 1) (fetched s.atBoundary)) .x = false)) := by
  obtain ⟨cause, he, rfl⟩ | ⟨vector, setX, he, rfl⟩ | ⟨vector, setX, he, rfl⟩ | ⟨he, rfl⟩ | ⟨he, rfl⟩ |
    ⟨he, ⟨i, rest, hd, hx⟩ | ⟨e, -, rfl⟩⟩ := step_cases h
  · exact .inl ⟨cause, he, by simp [resetSequence_flag]⟩
  · exact .inr (.inl ⟨vector, setX, .inl he, by simp [takeInterrupt_flag, atBoundary_flag]⟩)
  · exact .inr (.inl ⟨vector, setX, .inr he, by simp [enterVector_flag, atBoundary_flag]⟩)
  · exact .inr (.inr (.inl (atBoundary_flag .x)))
  · exact .inr (.inr (.inl (atBoundary_flag .x)))
  · refine .inr (.inr ?_)
    have hflag : (fetched s.atBoundary).flag .x = s.flag .x := (fetched_flag .x).trans (atBoundary_flag .x)
    by_cases hsame : t.flag .x = s.flag .x
    · exact .inl hsame
    · obtain ⟨hold, hnew, hi⟩ := (exec_masks hx).2.1 (by rwa [hflag])
      rw [fetched_a, atBoundary_a, fetched_sp, atBoundary_sp] at hi
      exact .inr ⟨he, hflag ▸ hold, hnew, i, rest, hd, hi⟩
  · refine .inr (.inr (.inl ?_))
    obtain ⟨ret, hret⟩ := illegalOpcodeTrap_eq s.pc (fetched s.atBoundary)
    rw [hret, takeInterrupt_flag]
    simp [fetched_flag, atBoundary_flag]

/-- Settles O15: only an event that sets X raises it, which by `event_of_setX` is XIRQ while X is 0, or a reset. -/
theorem xMaskIsSetOnlyByHardware : Obligations.XMaskIsSetOnlyByHardware := by
  intro s t h
  refine ⟨fun hx => ⟨fun he => ?_, fun he => ?_⟩, fun cause he => ?_, fun he => ?_, fun hx ht => ?_, fun hx ht => ?_⟩
  · exact Bool.false_ne_true ((event_of_setX (.inl he)).2.symm.trans hx)
  · exact Bool.false_ne_true ((event_of_setX (.inr he)).2.symm.trans hx)
  · rw [Host.Outcome.next.inj (h.symm.trans (step_of_reset he))]
    simp [resetSequence_flag]
  · rw [Host.Outcome.next.inj (h.symm.trans (step_of_interrupt he))]
    have hentry := takeInterrupt_entered xirqVector true s.pc s.atBoundary
    exact ⟨hentry.frame, hentry.maskX, hentry.maskI⟩
  · obtain ⟨cause, he, -⟩ | ⟨vector, setX, he, hset⟩ | hsame | ⟨-, hold, -⟩ := step_x_cases h
    · exact .inl ⟨cause, he⟩
    · obtain rfl : setX = true := by simpa [hx, ht] using hset.symm
      obtain ⟨rfl, -⟩ := event_of_setX he
      exact .inr he
    · exact absurd (hsame.symm.trans ht) (by simp [hx])
    · exact absurd (hold.symm.trans hx) (by decide)
  · obtain ⟨cause, -, hset⟩ | ⟨vector, setX, -, hset⟩ | hsame | ⟨he, -, -, hi⟩ := step_x_cases h
    · exact absurd (hset.symm.trans ht) (by decide)
    · simp [hx, ht] at hset
    · exact absurd (hsame.symm.trans ht) (by simp [hx])
    · exact ⟨he, hi⟩

/-- A step changes S by a reset, or by TAP or RTI. -/
theorem step_s (h : step s = .next t) (hne : t.flag .s ≠ s.flag .s) :
    (∃ cause, s.event = .reset cause) ∨ s.event = .execute ∧
      ∃ i rest, decode s.cfg.opcodeMap (fetchBytes s.atBoundary) = .ok (i, rest) ∧ i ∈ [Instr.tap, .rti] := by
  obtain ⟨cause, he, rfl⟩ | ⟨vector, setX, he, rfl⟩ | ⟨vector, setX, he, rfl⟩ | ⟨he, rfl⟩ | ⟨he, rfl⟩ |
    ⟨he, ⟨i, rest, hd, hx⟩ | ⟨e, -, rfl⟩⟩ := step_cases h
  · exact .inl ⟨cause, he⟩
  · simp [takeInterrupt_flag, atBoundary_flag] at hne
  · simp [enterVector_flag, atBoundary_flag] at hne
  · exact absurd (atBoundary_flag .s) hne
  · exact absurd (atBoundary_flag .s) hne
  · have hflag : (fetched s.atBoundary).flag .s = s.flag .s := (fetched_flag .s).trans (atBoundary_flag .s)
    exact .inr ⟨he, i, rest, hd, (exec_masks hx).2.2 (by rwa [hflag])⟩
  · obtain ⟨ret, hret⟩ := illegalOpcodeTrap_eq s.pc (fetched s.atBoundary)
    rw [hret, takeInterrupt_flag] at hne
    simp [fetched_flag, atBoundary_flag] at hne

/-! ## The events -/

theorem sample_flag (f : Flag) : (sample s).flag f = s.flag f := congrArg (getFlag · f) (sample_ccr s)

theorem event_of_reset_line {cause : ResetCause} (h : (sample s).lines.reset = some cause) : s.event = .reset cause := by
  simp [State.event, recognise, h]

/-- A running CPU (60_exceptions.md R334). -/
theorem event_of_running (hrun : s.run = .running) (hreset : (sample s).lines.reset = none) :
    s.event =
      if (sample s).lines.xirq && !s.flag .x then .interrupt xirqVector true
      else if s.flag .i || (s.lateClear && (sample s).lines.holdOff) then .execute
      else match (sample s).lines.maskable with
        | [] => .execute
        | source :: _ => .interrupt (irqVector source) false := by
  simp only [State.event, recognise, hreset, sample_run, hrun, sample_flag, sample_lateClear] <;> rfl

/-- A waiting CPU (60_exceptions.md R352(b)). -/
theorem event_of_waiting (hrun : s.run = .waiting) (hreset : (sample s).lines.reset = none) :
    s.event =
      if (sample s).lines.xirq && !s.flag .x then .wake xirqVector true
      else if s.flag .i then .idle
      else match (sample s).lines.maskable with
        | [] => .idle
        | source :: _ => .wake (irqVector source) false := by
  simp only [State.event, recognise, hreset, sample_run, hrun, sample_flag] <;> rfl

/-- A stopped CPU (60_exceptions.md R352(c)). -/
theorem event_of_stopped (hrun : s.run = .stopped) (hreset : (sample s).lines.reset = none) :
    s.event =
      if (sample s).lines.xirq && !s.flag .x then .interrupt xirqVector true
      else if (sample s).lines.xirq then .resume
      else if !s.flag .i && (sample s).lines.maskable.contains .irq then .interrupt (irqVector .irq) false
      else .idle := by
  simp only [State.event, recognise, hreset, sample_run, hrun, sample_flag]

/-- XIRQ is not recognised where it is not requested or X is 1. -/
theorem xirq_and_not_x (h : (sample s).lines.xirq = false ∨ s.flag .x = true) :
    ((sample s).lines.xirq && !s.flag .x) = false := by
  obtain h | h := h <;> simp [h]

/-- Settles O18. -/
theorem runningBoundaryFollowsTheRecognitionOrder : Obligations.RunningBoundaryFollowsTheRecognitionOrder := by
  intro s hrun
  refine ⟨fun cause => event_of_reset_line, fun hreset => ?_⟩
  rw [event_of_running hrun hreset]
  refine ⟨fun hxirq hx => by simp [hxirq, hx, xirqVector], fun hno => ?_⟩
  rw [xirq_and_not_x hno]
  refine ⟨fun hi => by simp [hi], fun hm => by simp [hm], fun source rest hi hm => ?_⟩
  simp [hi, hm]

/-- Settles O19: the fifteen vectors by evaluation, the two pages by subtraction. -/
theorem vectorsStandAtTheListedAddresses : Obligations.VectorsStandAtTheListedAddresses := by
  refine ⟨by decide, fun v => ⟨rfl, fun hv => ?_⟩⟩
  have hlt := v.isLt
  simp only [vec, BitVec.toNat_sub, BitVec.toNat_ofNat]
  omega

theorem step_of_wake {vector : Word} {setX : Bool} (h : s.event = .wake vector setX) :
    step s = .next (enterVector vector setX s.atBoundary) := by
  simp only [step, h]

theorem step_of_resume (h : s.event = .resume) : step s = .next { s.atBoundary with run := .running } := by
  simp only [step, h, resumeRunning]

theorem step_of_idle (h : s.event = .idle) : step s = .next s.atBoundary := by
  simp only [step, h]

/-- What the end of WAI through a vector is: the second half of an entry (60_exceptions.md R352(b)). -/
theorem enterVector_wokenUp (vector : Word) (setX : Bool) (s : State) :
    WokenUp vector setX s (enterVector vector setX s) where
  unchanged :=
    { registers := fun q _ => reg_congr (by simp) (by simp) (by simp) (by simp) (by simp) q
      ccr := fun f hf => by
        simp only [List.mem_cons, List.not_mem_nil, or_false, not_or] at hf
        simp [enterVector_flag, hf]
      memory := fun x _ => memByte_congr (by simp) (by simp) (by simp) x
      lastReset := by simp
      lines := by simp
      script := by simp
      generation := by simp
      cfg := by simp }
  maskI := by simp [enterVector_flag]
  maskX := by simp [enterVector_flag]
  pc := enterVector_pc vector setX s
  run := rfl
  accesses := ⟨enterVector_io .., enterVector_draws ..⟩

/-- Settles O23. -/
theorem waitEndsWithoutASecondStacking : Obligations.WaitEndsWithoutASecondStacking := by
  intro s hrun hreset
  have he := event_of_waiting hrun hreset
  refine ⟨fun hxirq hx => ?_, fun source rest hno hi hm => ?_, fun hno hmasked => step_of_idle ?_⟩
  · exact ⟨_, step_of_wake (by rw [he]; simp [hxirq, hx]), enterVector_wokenUp xirqVector true _⟩
  · rw [xirq_and_not_x hno] at he
    exact ⟨_, step_of_wake (by rw [he]; simp [hi, hm]), enterVector_wokenUp (irqVector source) false _⟩
  · rw [xirq_and_not_x hno] at he
    rw [he]
    obtain hi | hm := hmasked
    · simp [hi]
    · simp [hm]

/-- Settles O24. -/
theorem stopEndsAsTheSpecDecides : Obligations.StopEndsAsTheSpecDecides := by
  intro s hrun hreset
  have he := event_of_stopped hrun hreset
  refine ⟨fun hxirq hx => ?_, fun hxirq hx => step_of_resume ?_, fun hxirq hi hirq => ?_,
    fun hxirq hmasked => step_of_idle ?_⟩
  · exact ⟨_, step_of_interrupt (by rw [he]; simp [hxirq, hx]), takeInterrupt_entered xirqVector true _ _⟩
  · rw [he]
    simp [hxirq, hx]
  · exact ⟨_, step_of_interrupt (by rw [he]; simp [hxirq, hi, hirq]), takeInterrupt_entered (irqVector .irq) false _ _⟩
  · rw [he]
    obtain hi | hirq := hmasked
    · simp [hxirq, hi]
    · simp [hxirq, hirq]

/-! ## Running the instruction at PC -/

/-- A step without an event is the meaning of the instruction fetched (60_exceptions.md R334 step 4). -/
theorem step_of_decode_ok {rest : List Byte} (hx : s.executes)
    (hd : decode s.cfg.opcodeMap (fetchBytes s.atBoundary) = .ok (i, rest)) : step s = exec i (fetched s.atBoundary) := by
  unfold State.executes at hx
  simp only [step, hx, fetchAndExecute, atBoundary_cfg, hd]

/-- Settles O6. -/
theorem stepRunsTheDecodedInstruction : Obligations.StepRunsTheDecodedInstruction := by
  intro s i rest hx hd n
  refine ⟨step_of_decode_ok hx hd, ?_⟩
  simp only [n, fetchBytes_length, fetched, atBoundary_pc]

/-- Where bytes that are one instruction stand in memory at PC, the fetch reads just them (30_encoding.md R95, R96). -/
theorem fetchLength_of_inMemory {bs : List Byte} (hd : decode s.cfg.opcodeMap bs = .ok (i, []))
    (hm : s.inMemory s.pc bs.length = true) (hb : s.memBytes s.pc bs.length = bs) : fetchLength s = bs.length := by
  obtain _ | ⟨b, bs⟩ := bs
  · cases hd
  · simp only [List.length_cons, State.inMemory, State.memBytes, Bool.and_eq_true, List.cons.injEq] at hm hb
    obtain ⟨hmem, hm⟩ := hm
    obtain ⟨hfirst, hb⟩ := hb
    have hpeek : peek s.pc s = b := by rw [peek_of_isMemory hmem, hfirst]
    cases hp : s.cfg.opcodeMap.isPrebyte b with
    | true =>
      obtain _ | ⟨op, bs⟩ := bs
      · simp [decode, hp] at hd
      · simp only [List.length_cons, State.inMemory, State.memBytes, Bool.and_eq_true, List.cons.injEq] at hm hb
        simp only [decode, hp, if_true] at hd
        obtain ⟨-, -, hops, hcount⟩ := decodeOpcode_ok hd
        rw [List.append_nil] at hops
        have hpeek' : peek (s.pc + 1) (touch s.pc s) = op := by
          rw [touch_of_isMemory hmem, peek_of_isMemory hm.1, hb.1]
        simp only [fetchLength, hpeek, hpeek', hp, if_true, ← hcount, ← hops, List.length_cons]
        omega
    | false =>
      simp only [decode, hp, Bool.false_eq_true, if_false] at hd
      obtain ⟨-, -, hops, hcount⟩ := decodeOpcode_ok hd
      rw [List.append_nil] at hops
      simp only [fetchLength, hpeek, hp, Bool.false_eq_true, if_false, ← hcount, ← hops, List.length_cons]
      omega

theorem memBytes_congr (h : ∀ x, t.memByte x = s.memByte x) (x : Word) (n : Nat) : t.memBytes x n = s.memBytes x n := by
  induction n generalizing x with
  | zero => rfl
  | succ n ih => simp only [State.memBytes, h, ih]

/-- Settles O7: the fetch reads the bytes (`fetchLength_of_inMemory`), and reading memory changes nothing
(`readBytes_of_inMemory`). -/
theorem stepRunsTheInstructionInMemory : Obligations.StepRunsTheInstructionInMemory := by
  intro s i bs hx hd hm hb
  have hm' : s.atBoundary.inMemory s.atBoundary.pc bs.length = true := by
    rw [inMemory_eq_of_cfg atBoundary_cfg, atBoundary_pc, hm]
  have hb' : s.atBoundary.memBytes s.atBoundary.pc bs.length = bs := by
    rw [memBytes_congr atBoundary_memByte, atBoundary_pc, hb]
  have hlen : fetchLength s.atBoundary = bs.length := fetchLength_of_inMemory (by rwa [atBoundary_cfg]) hm' hb'
  obtain ⟨hread, htouch⟩ := readBytes_of_inMemory bs.length s.atBoundary.pc s.atBoundary hm'
  have hfetch : fetchBytes s.atBoundary = bs := by rw [fetchBytes, hlen, hread, hb']
  rw [step_of_decode_ok hx (by rw [hfetch, hd]), fetched, hlen, htouch, atBoundary_pc]

/-! ## WAI, an entry and its return, a reset -/

/-- A change of the run state leaves what a frame speaks of. -/
theorem frame_setRun {regs : List Reg} {flags : List Flag} {stored : List Word} (h : Frame regs flags stored s t)
    (r : RunState) : Frame regs flags stored s { t with run := r } where
  registers q hq := (reg_congr rfl rfl rfl rfl rfl q).trans (h.registers q hq)
  ccr := h.ccr
  memory x hx := (memByte_congr rfl rfl rfl x).trans (h.memory x hx)
  lastReset := h.lastReset
  lines := h.lines
  script := h.script
  generation := h.generation
  cfg := h.cfg

theorem memByte_setRun (s : State) (r : RunState) (x : Word) : ({ s with run := r } : State).memByte x = s.memByte x :=
  memByte_congr rfl rfl rfl x

theorem sameAccesses_setRun (s : State) (r : RunState) : SameAccesses s { s with run := r } := ⟨rfl, rfl⟩

/-- Settles O16. -/
theorem stopDisableGuardsStop : Obligations.StopDisableGuardsStop := by
  refine ⟨fun s hs => (Effect.refl s).runs (exec_stop_of_s hs) rfl trivial, fun s hs => ?_, fun s t h => ⟨?_, step_s h⟩⟩
  · exact ⟨_, exec_stop_of_not_s hs, rfl, rfl, frame_setRun (Effect.refl s).frame _, rfl, sameAccesses_setRun s _⟩
  · intro cause he
    rw [Host.Outcome.next.inj (h.symm.trans (step_of_reset he))]
    simp [resetSequence_flag]

/-- Stacking the nine bytes changes SP and the bytes below it (60_exceptions.md R336). -/
theorem stackFrame_frame (ret : Word) (s : State) : Frame [.sp] [] (frameAddresses s) s (stackFrame ret s) :=
  frame_sp_of (stackFrame_a ..) (stackFrame_b ..) (stackFrame_ix ..) (stackFrame_iy ..)
    (fun f _ => stackFrame_flag ret s f) (fun x hx => memByte_stackFrame ret s x hx)
    (stackFrame_lastReset ..) (stackFrame_lines ..) (stackFrame_script ..) (stackFrame_generation ..)
    (stackFrame_cfg ..)

theorem stackFrame_holdsFrame (ret : Word) (s : State) : HoldsFrame ret s (stackFrame ret s) :=
  holdsFrame_of rfl fun _ => rfl

theorem holdsFrame_setRun {ret : Word} (h : HoldsFrame ret s t) (r : RunState) : HoldsFrame ret s { t with run := r } :=
  ⟨h.1, fun p hp => ⟨fun hk => (memByte_setRun t r p.1).trans ((h.2 p hp).1 hk),
    fun hk => (memByte_setRun t r p.1).trans ((h.2 p hp).2 hk)⟩⟩

/-- Settles O22. -/
theorem waiStacksAndWaits : Obligations.WaiStacksAndWaits := by
  intro s
  refine ⟨_, exec_wai s, holdsFrame_setRun (stackFrame_holdsFrame s.pc s) .waiting, ?_, ?_, ?_,
    frame_setRun (stackFrame_frame s.pc s) .waiting, sameAccesses_setRun (stackFrame s.pc s) .waiting⟩
  · simp only [stackFrame_pc]
  · rfl
  · simp only [stackFrame_lateClear]

/-! ### The values a reset draws -/

section Reset

variable (cause : ResetCause) (s : State)

theorem draws_le_touch16 (x : Word) : s.draws ≤ (touch16 x s).draws := by
  have htouch : ∀ (y : Word) (u : State), u.draws ≤ (touch y u).draws := fun y u => by
    obtain ⟨-, h⟩ | ⟨-, h⟩ | ⟨-, h⟩ := touch_cases y u <;> simp [h]
  exact (htouch x s).trans (htouch (x + 1) _)

theorem resetSequence_a : (resetSequence cause s).a = (Config.draw s.draws).setWidth 8 := by
  rw [resetSequence_eq]
  exact touch16_a ..

theorem resetSequence_b : (resetSequence cause s).b = (Config.draw (s.draws + 1)).setWidth 8 := by
  rw [resetSequence_eq]
  exact touch16_b ..

theorem resetSequence_ix : (resetSequence cause s).ix = Config.draw (s.draws + 2) := by
  rw [resetSequence_eq]
  exact touch16_ix ..

theorem resetSequence_iy : (resetSequence cause s).iy = Config.draw (s.draws + 3) := by
  rw [resetSequence_eq]
  exact touch16_iy ..

theorem resetSequence_sp : (resetSequence cause s).sp = Config.draw (s.draws + 4) := by
  rw [resetSequence_eq]
  exact touch16_sp ..

theorem resetSequence_draws : s.draws + 6 ≤ (resetSequence cause s).draws := by
  rw [resetSequence_eq]
  exact draws_le_touch16 (resetCleared cause s) _

end Reset

/-- Settles O26: the values are those of `resetCleared`, and reading the vector leaves them. -/
theorem resetForcesTheMasksAndDrawsTheRest : Obligations.ResetForcesTheMasksAndDrawsTheRest := by
  intro s cause he
  have hdraws : s.atBoundary.draws = s.draws := atBoundary_draws
  have hflag := resetSequence_flag cause s.atBoundary
  have hmem : ∀ x, (resetSequence cause s.atBoundary).memByte x = (resetCleared cause s.atBoundary).memByte x :=
    resetSequence_memByte cause s.atBoundary
  rw [hdraws] at hflag
  refine ⟨_, step_of_reset he, by simp [hflag], by simp [hflag], by simp [hflag], resetSequence_run ..,
    resetSequence_lastReset .., resetSequence_lateClear .., (resetSequence_cfg ..).trans atBoundary_cfg,
    by rw [resetSequence_a, hdraws], by rw [resetSequence_b, hdraws], by rw [resetSequence_ix, hdraws],
    by rw [resetSequence_iy, hdraws], by rw [resetSequence_sp, hdraws], fun f hf => ?_,
    hdraws ▸ resetSequence_draws cause s.atBoundary, fun x hx => ?_, fun x hx => ?_⟩
  · have hne : ¬ (f = .i ∨ f = .x ∨ f = .s) := by
      rintro (rfl | rfl | rfl) <;> simp at hf
    rw [hflag, if_neg hne]
  · rw [hmem, resetCleared_memByte _ _ _ (by rwa [atBoundary_kind]), atBoundary_memByte]
  · rw [hmem, resetCleared_memByte_ram cause (by rwa [atBoundary_kind]), atBoundary_memByte, atBoundary_cfg,
      atBoundary_generation]

/-! ## What is pushed on a stack in RAM is read back -/

/-- What `stackRoom` says of each of its bytes. -/
theorem kind_of_stackRoom {n k : Nat} (h : s.stackRoom n = true) (hk : k < n) :
    s.kind (s.sp - BitVec.ofNat 16 k) = .ram := by
  induction n with
  | zero => omega
  | succ n ih =>
    simp only [State.stackRoom, Bool.and_eq_true, beq_iff_eq] at h
    obtain rfl | hlt := Nat.eq_or_lt_of_le (Nat.le_of_lt_succ hk)
    · exact h.1
    · exact ih h.2 hlt

theorem sub_succ_add_one (x : Word) (k : Nat) : x - BitVec.ofNat 16 (k + 1) + 1 = x - BitVec.ofNat 16 k := by
  rw [sub_succ, sub_right_comm, BitVec.sub_add_cancel]

theorem inMemory_below {x : Word} {n : Nat} (h : ∀ k < n, t.isMemory (x - BitVec.ofNat 16 k) = true) :
    t.inMemory (x - BitVec.ofNat 16 n + 1) n = true := by
  induction n with
  | zero => rfl
  | succ n ih =>
    rw [sub_succ_add_one, State.inMemory, h n (Nat.lt_succ_self n), ih fun k hk => h k (Nat.lt_succ_of_lt hk)]
    rfl

/-- Bytes that stand in order from an address down are the list's reverse from the lowest address up. -/
theorem memBytes_below (x : Word) (l : List Byte)
    (h : ∀ k (hk : k < l.length), t.memByte (x - BitVec.ofNat 16 k) = l[k]) :
    t.memBytes (x - BitVec.ofNat 16 l.length + 1) l.length = l.reverse := by
  induction l using List.reverseRecOn with
  | nil => rfl
  | append_singleton l v ih =>
    have hlast : t.memByte (x - BitVec.ofNat 16 l.length) = v := by simpa using h l.length (by simp)
    have hinit := ih fun k hk => (h k (by simp; omega)).trans (List.getElem_append_left hk)
    rw [List.length_append, List.length_singleton, sub_succ_add_one, State.memBytes, hlast, hinit,
      List.reverse_append, List.reverse_singleton, List.singleton_append]

theorem pushAll_sp (l : List Byte) (s : State) : (pushAll l s).sp = s.sp - BitVec.ofNat 16 l.length := by
  induction l generalizing s with
  | nil => simp [pushAll]
  | cons v l ih => rw [pushAll, ih, push_sp, List.length_cons, sub_succ]

theorem pushAll_cfg (l : List Byte) (s : State) : (pushAll l s).cfg = s.cfg := (kept_pushAll l s).cfg

/-- Bytes pushed where the stack is RAM stand above the new SP, the last one first. -/
theorem memBytes_pushAll {l : List Byte} (hl : l.length ≤ 1000) (h : s.stackRoom l.length = true) :
    (pushAll l s).inMemory ((pushAll l s).sp + 1) l.length = true ∧
      (pushAll l s).memBytes ((pushAll l s).sp + 1) l.length = l.reverse := by
  rw [pushAll_sp]
  refine ⟨inMemory_below fun k hk => isMemory_of_ram ?_, memBytes_below s.sp l fun k hk => ?_⟩
  · rw [kind_eq_of_cfg (pushAll_cfg l s)]
    exact kind_of_stackRoom h hk
  · exact (stored_pushAll l s hl k hk).1 (kind_of_stackRoom h hk)

/-! ### RTI right after an entry -/

theorem memByte_withRegisters (s : State) (a b : Byte) (ix iy sp pc : Word) (ccr : Byte) (x : Word) :
    (withRegisters s a b ix iy sp pc ccr).memByte x = s.memByte x := memByte_congr rfl rfl rfl x

/-- Nine reads above SP, after an entry where the stack is RAM, give the nine bytes of the frame and change nothing. -/
theorem readBytes_takeInterrupt (vector : Word) (setX : Bool) (ret : Word) (h : s.stackRoom 9 = true) :
    let t := takeInterrupt vector setX ret s
    readBytes 9 (t.sp + 1) t =
      [s.ccr, s.b, s.a, hiByte s.ix, loByte s.ix, hiByte s.iy, loByte s.iy, hiByte ret, loByte ret] ∧
      touchBytes 9 (t.sp + 1) t = t := by
  intro t
  have hstack := memBytes_pushAll (l := frameBytes ret s) (by simp [frameBytes]) h
  rw [← stackFrame_eq_pushAll] at hstack
  obtain ⟨hmem, hbytes⟩ := hstack
  have hsp : t.sp = (stackFrame ret s).sp := takeInterrupt_sp ..
  have hcfg : t.cfg = (stackFrame ret s).cfg := (takeInterrupt_cfg ..).trans (stackFrame_cfg ..).symm
  have hin : t.inMemory (t.sp + 1) 9 = true := by
    rw [inMemory_eq_of_cfg hcfg, hsp]
    exact hmem
  obtain ⟨hread, htouch⟩ := readBytes_of_inMemory 9 _ t hin
  refine ⟨?_, htouch⟩
  rw [hread, memBytes_congr (takeInterrupt_memByte vector setX ret s), hsp]
  exact hbytes

/-- Loading the CCR that an entry stacked takes back what the entry set: I, and for XIRQ X, which may be cleared. -/
theorem loadCcr_takeInterrupt (vector : Word) (setX : Bool) (ret : Word) (s : State) :
    loadCcr (takeInterrupt vector setX ret s).ccr s.ccr = s.ccr := by
  refine ccr_ext fun f => ?_
  have hx := takeInterrupt_flag vector setX ret s .x
  simp only [State.flag, reduceCtorEq, if_false, if_true] at hx
  rw [getFlag_loadCcr, hx]
  split
  · next h =>
    subst h
    cases getFlag s.ccr .x <;> simp
  · rfl

/-- Settles O21: RTI reads the frame that the entry stacked. -/
theorem entryThenReturnRestoresTheContext : Obligations.EntryThenReturnRestoresTheContext := by
  intro s vector ret setX hroom
  obtain ⟨hread, htouch⟩ := readBytes_takeInterrupt vector setX ret hroom
  obtain ⟨c, b, a, xh, xl, yh, yl, ph, pl, hread', hrti⟩ := returnFromInterrupt_eq (takeInterrupt vector setX ret s)
  rw [hread] at hread'
  simp only [List.cons.injEq, and_true] at hread'
  obtain ⟨rfl, rfl, rfl, rfl, rfl, rfl, rfl, rfl, rfl⟩ := hread'
  refine ⟨_, (exec_rti _).trans (congrArg _ hrti), rfl, rfl, join_hiByte_loByte s.ix, join_hiByte_loByte s.iy, ?_,
    loadCcr_takeInterrupt .., join_hiByte_loByte ret, fun x hx => ?_⟩
  · have hsp : (takeInterrupt vector setX ret s).sp = s.sp - 9#16 := (takeInterrupt_sp ..).trans (stackFrame_sp s ret)
    simp only [withRegisters, hsp]
    exact BitVec.sub_add_cancel ..
  · rw [htouch]
    exact (memByte_withRegisters ..).trans ((takeInterrupt_memByte ..).trans (memByte_stackFrame ret s x hx))

end Sys2Proof.Machine

/-!
PROOFS. Memory, operands and the stack, in numbers (20_memory.md, 30_encoding.md section 3).
-/

namespace Sys2Proof.Machine

variable {s : State} {x : Word}

/-! ## One access -/

theorem store_of_discarded (h : s.kind x = .rom ∨ s.kind x = .nothing) (v : Byte) : store x v s = s := by
  obtain h | h := h <;> simp [store, h]

theorem store_of_io (h : s.kind x = .io) (v : Byte) : store x v s = { s with io := .write x v :: s.io } := by
  simp [store, h]

theorem touch_of_io (h : s.kind x = .io) : touch x s = { s with io := .read x :: s.io } := by simp [touch, h]

theorem touch_of_nothing (h : s.kind x = .nothing) : touch x s = { s with draws := s.draws + 1 } := by simp [touch, h]

theorem store_io_of_ram (h : s.kind x = .ram) (v : Byte) : (store x v s).io = s.io := by simp [store, h]

/-- Settles O28. -/
theorem storeReachesItsAddressAlone : Obligations.StoreReachesItsAddressAlone := by
  intro s x y v
  refine ⟨fun h => ⟨?_, store_io_of_ram h v⟩, fun h => memByte_store_ne h v s, fun h => store_of_discarded h v,
    fun h => store_of_io h v, fun h => ⟨peek_of_isMemory h, touch_of_isMemory h⟩, touch_of_io, touch_of_nothing⟩
  rw [peek_of_isMemory (isMemory_of_ram (by rwa [kind_store])), memByte_store_same h]

/-! ## Words -/

theorem memByte_store16 (hx : s.kind x = .ram) (hx' : s.kind (x + 1) = .ram) (v : Word) :
    (store16 x v s).memByte x = hiByte v ∧ (store16 x v s).memByte (x + 1) = loByte v := by
  have hstored : Stored s (store16 x v s) x (hiByte v) ∧ Stored s (store16 x v s) (x + 1) (loByte v) :=
    stored_two (ne_add_one x) rfl rfl rfl fun _ => rfl
  exact ⟨hstored.1.1 hx, hstored.2.1 hx'⟩

theorem inMemory_two (h : s.isMemory x = true) (h' : s.isMemory (x + 1) = true) : s.inMemory x 2 = true := by
  simp only [State.inMemory, h, h', Bool.and_self]

/-- Settles O29. -/
theorem wordsAreHighByteFirst : Obligations.WordsAreHighByteFirst := by
  intro s x v
  refine ⟨fun h => ?_, fun hx hx' => ?_, fun hx hx' => ⟨?_, ?_⟩, ?_⟩
  · rw [(peek16_of_inMemory h).1, join_toNat]
  · obtain ⟨hhi, hlo⟩ := memByte_store16 hx hx' v
    have hkind : ∀ y, (store16 x v s).kind y = s.kind y := kind_eq_of_cfg ((store_cfg ..).trans (store_cfg ..))
    have hmem : (store16 x v s).inMemory x 2 = true :=
      inMemory_two (isMemory_of_ram (by rwa [hkind])) (isMemory_of_ram (by rwa [hkind]))
    exact ⟨by rw [hhi, hiByte_toNat], by rw [hlo, loByte_toNat],
      by rw [(peek16_of_inMemory hmem).1, hhi, hlo, join_hiByte_loByte]⟩
  · rw [store16, store_of_io (by rwa [kind_store]), store_of_io hx]
  · rw [touch16, touch_of_io (by rwa [kind_touch]), touch_of_io hx]
  · rw [BitVec.toNat_add]
    rfl

/-! ## Effective addresses and operands -/

theorem toNat_add_zext16 (w : Word) (ff : Byte) : (w + zext16 ff).toNat = (w.toNat + ff.toNat) % 65536 := by
  rw [zext16, BitVec.toNat_add, BitVec.toNat_setWidth_of_le (by decide)]

/-- Settles O30. -/
theorem operandsAreReadAtTheEffectiveAddress : Obligations.OperandsAreReadAtTheEffectiveAddress := by
  intro s
  refine ⟨fun dd => BitVec.toNat_setWidth_of_le (by decide), join_toNat, toNat_add_zext16 s.ix, toNat_add_zext16 s.iy,
    fun ii => ⟨rfl, rfl⟩, fun jjkk => ⟨rfl, rfl⟩, fun m h => ⟨peek_of_isMemory h, touch_of_isMemory h⟩, fun m h => ?_⟩
  obtain ⟨hword, htouch⟩ := peek16_of_inMemory h
  exact ⟨(congrArg BitVec.toNat hword).trans (join_toNat _ _), htouch⟩

/-! ## A pull after a push -/

/-- Settles O31: what is pushed on a stack in RAM stands above the new SP (`memBytes_pushAll`). -/
theorem pullUndoesPush : Obligations.PullUndoesPush := by
  intro s v w
  refine ⟨fun h => ?_, fun h => ?_⟩
  · obtain ⟨hmem, hbytes⟩ := memBytes_pushAll (l := [v]) (by simp)
      (show s.stackRoom 1 = true by simp [State.stackRoom, h])
    simp only [List.length_singleton, State.inMemory, Bool.and_true] at hmem
    refine ⟨(peek_of_isMemory hmem).trans (List.cons.inj hbytes).1, ?_⟩
    rw [pulled_sp, push_sp, BitVec.sub_add_cancel]
  · obtain ⟨hmem, hbytes⟩ := memBytes_pushAll (l := [loByte w, hiByte w]) (by simp) h
    obtain ⟨hhi, hrest⟩ := List.cons.inj hbytes
    have hword : peek16 ((pushWord w s).sp + 1) (pushWord w s) = w := by
      refine (peek16_of_inMemory hmem).1.trans ?_
      rw [hhi, (List.cons.inj hrest).1]
      exact join_hiByte_loByte w
    refine ⟨(pullWordValue_eq _).trans hword, ?_, hword⟩
    rw [pulledWord_sp_two, pushWord_sp, sub_one_sub_one, BitVec.sub_add_cancel]

end Sys2Proof.Machine

/-!
PROOFS. The arithmetic instructions by the laws of 40_arithmetic.md in numbers.

Three layers: the results and flags that each computation of Machine/Flags leaves, as the laws of Safety.lean have them; one
rule for each shape of instruction, which takes the frame from `Effect` and asks for the law alone; and the obligations, one
rule applied to each instruction.
-/

namespace Sys2Proof.Machine

variable {s t : State} {i : Instr}

/-! ## The flags after each writer -/

theorem flags_of_putNZV {c : Byte} {n z v : Bool} (h : t.ccr = putNZV c n z v) :
    t.flag .n = n ∧ t.flag .z = z ∧ t.flag .v = v := by
  simp [State.flag, h]

theorem flags_of_putNZVC {c : Byte} {n z v k : Bool} (h : t.ccr = putNZVC c n z v k) :
    t.flag .n = n ∧ t.flag .z = z ∧ t.flag .v = v ∧ t.flag .c = k := by
  simp [State.flag, h]

theorem flags_of_putHNZVC {c : Byte} {hc n z v k : Bool} (h : t.ccr = putHNZVC c hc n z v k) :
    t.flag .h = hc ∧ t.flag .n = n ∧ t.flag .z = z ∧ t.flag .v = v ∧ t.flag .c = k := by
  simp [State.flag, h]

theorem flags_of_putZVC {c : Byte} {z v k : Bool} (h : t.ccr = putZVC c z v k) :
    t.flag .z = z ∧ t.flag .v = v ∧ t.flag .c = k := by
  simp [State.flag, h]

/-! ## Overflow: the sign rule of the flags says that the signed result does not fit -/

section Overflow

variable {w : Nat} {x y r : BitVec (w + 1)} {cin : Bool}

/-- The signed value of a number of `w + 1` bits. -/
theorem toInt_cases (x : BitVec (w + 1)) :
    (x.toNat : Int) < 2 ^ w ∧ x.toInt = x.toNat ∨
      2 ^ w ≤ (x.toNat : Int) ∧ (x.toNat : Int) < 2 * 2 ^ w ∧ x.toInt = x.toNat - 2 * 2 ^ w := by
  have hlt : (x.toNat : Int) < 2 * 2 ^ w := by exact_mod_cast pow_succ' 2 w ▸ x.isLt
  have hint := BitVec.toInt_eq_toNat_cond x
  rw [pow_succ'] at hint
  split at hint
  · next h => exact .inl ⟨by exact_mod_cast lt_of_mul_lt_mul_left h (Nat.zero_le 2), hint⟩
  · next h =>
    have hle := le_of_mul_le_mul_left (not_lt.1 h) Nat.zero_lt_two
    exact .inr ⟨by exact_mod_cast hle, hlt, by exact_mod_cast hint⟩

/-- A number less than two moduli off, taken modulo `m`. -/
theorem emod_cases {v m : Int} (hlow : -m ≤ v) (hhigh : v < 2 * m) : v % m = v + m ∨ v % m = v ∨ v % m = v - m := by
  obtain hneg | hpos := Int.lt_or_le v 0
  · exact .inl (by rw [← Int.add_emod_right, Int.emod_eq_of_lt (by omega) (by omega)])
  · obtain hlt | hge := Int.lt_or_le v m
    · exact .inr (.inl (Int.emod_eq_of_lt hpos hlt))
    · exact .inr (.inr (by rw [← Int.sub_emod_right, Int.emod_eq_of_lt (by omega) (by omega)]))

theorem eq_not_fits {p v : Int} {b : Bool} (h : b = true ↔ v < -p ∨ p ≤ v) :
    b = !(decide (-p ≤ v) && decide (v < p)) := by
  rw [Bool.eq_iff_iff, h]
  simp only [Bool.not_eq_true', Bool.and_eq_false_iff, decide_eq_false_iff_not, not_le, not_lt]

/-- A sum overflows where the operands have one sign and the result the other (40_arithmetic.md R130). -/
theorem add_overflow (hr : (r.toNat : Int) = (x.toNat + y.toNat + cin.toNat) % (2 * 2 ^ w)) :
    (x.msb == y.msb && r.msb != x.msb) =
      !(decide (-2 ^ w ≤ x.toInt + y.toInt + cin.toNat) && decide (x.toInt + y.toInt + cin.toNat < 2 ^ w)) := by
  refine eq_not_fits ?_
  have hcin := Bool.toNat_le cin
  have hx := toInt_cases x
  have hy := toInt_cases y
  have hr' := toInt_cases r
  generalize (2 : Int) ^ w = p at *
  have hwrap := emod_cases (v := x.toNat + y.toNat + cin.toNat) (m := 2 * p) (by omega) (by omega)
  rw [← hr] at hwrap
  simp only [Bool.and_eq_true, beq_iff_eq, bne_iff_ne, ne_eq, BitVec.msb_eq_toInt, decide_eq_decide]
  omega

/-- A difference overflows where the operands differ in sign and the result has the sign of the subtrahend
(40_arithmetic.md R131). -/
theorem sub_overflow (hr : (r.toNat : Int) = ((x.toNat : Int) - y.toNat - cin.toNat) % (2 * 2 ^ w)) :
    (x.msb != y.msb && r.msb != x.msb) =
      !(decide (-2 ^ w ≤ x.toInt - y.toInt - cin.toNat) && decide (x.toInt - y.toInt - cin.toNat < 2 ^ w)) := by
  refine eq_not_fits ?_
  have hcin := Bool.toNat_le cin
  have hx := toInt_cases x
  have hy := toInt_cases y
  have hr' := toInt_cases r
  generalize (2 : Int) ^ w = p at *
  have hwrap := emod_cases (v := (x.toNat : Int) - y.toNat - cin.toNat) (m := 2 * p) (by omega) (by omega)
  rw [← hr] at hwrap
  simp only [Bool.and_eq_true, bne_iff_ne, ne_eq, BitVec.msb_eq_toInt, decide_eq_decide]
  omega

end Overflow

/-! ## The computations of Machine/Flags by the laws -/

/-- The add law from the result and the flags as Machine/Flags write them. -/
theorem addLaw_of {w : Nat} {x y r : BitVec (w + 1)} {cin : Bool}
    (hr : r.toNat = (x.toNat + y.toNat + cin.toNat) % 2 ^ (w + 1))
    (hflags : t.flag .n = r.msb ∧ t.flag .z = (r == 0#(w + 1)) ∧ t.flag .v = (x.msb == y.msb && r.msb != x.msb) ∧
      t.flag .c = decide (2 ^ (w + 1) ≤ x.toNat + y.toNat + cin.toNat)) : AddLaw (w + 1) x y cin r t where
  value := hr
  negative := hflags.1
  zero := hflags.2.1
  overflow := hflags.2.2.1.trans (add_overflow (by rw [hr, pow_succ']; push_cast; rfl))
  carry := hflags.2.2.2

/-- The subtract law from the result and the flags as Machine/Flags write them. -/
theorem subLaw_of {w : Nat} {x y r : BitVec (w + 1)} {bin : Bool}
    (hr : (r.toNat : Int) = ((x.toNat : Int) - y.toNat - bin.toNat) % 2 ^ (w + 1))
    (hflags : t.flag .n = r.msb ∧ t.flag .z = (r == 0#(w + 1)) ∧ t.flag .v = (x.msb != y.msb && r.msb != x.msb) ∧
      t.flag .c = decide (x.toNat < y.toNat + bin.toNat)) : SubLaw (w + 1) x y bin r t where
  value := hr
  negative := hflags.1
  zero := hflags.2.1
  overflow := hflags.2.2.1.trans (sub_overflow (by rw [hr, pow_succ']))
  carry := hflags.2.2.2

theorem addLaw_add8 {x y c : Byte} {cin : Bool} (h : t.ccr = (add8 x y cin c).ccr) :
    AddLaw 8 x y cin (add8 x y cin c).val t ∧ t.flag .h = decide (15 < x.toNat % 16 + y.toNat % 16 + cin.toNat) := by
  obtain ⟨hh, hflags⟩ := flags_of_putHNZVC h
  exact ⟨addLaw_of (w := 7) (BitVec.toNat_ofNat _ _) hflags, hh⟩

theorem addLaw_add16 {x y : Word} {c : Byte} (h : t.ccr = (add16 x y c).ccr) :
    AddLaw 16 x y false (add16 x y c).val t :=
  addLaw_of (w := 15) (BitVec.toNat_add x y) (flags_of_putNZVC h)

theorem subLaw_sub8 {x y c : Byte} {bin : Bool} (h : t.ccr = (sub8 x y bin c).ccr) :
    SubLaw 8 x y bin (sub8 x y bin c).val t := by
  refine subLaw_of (w := 7) ?_ (flags_of_putNZVC h)
  have hbin := Bool.toNat_le bin
  have hone : (BitVec.ofNat 8 bin.toNat).toNat = bin.toNat := (BitVec.toNat_ofNat _ _).trans (Nat.mod_eq_of_lt (by omega))
  simp only [sub8, BitVec.toNat_sub, hone]
  omega

theorem subLaw_sub16 {x y : Word} {c : Byte} (h : t.ccr = (sub16 x y c).ccr) :
    SubLaw 16 x y false (sub16 x y c).val t := by
  refine subLaw_of (w := 15) ?_ (flags_of_putNZVC h)
  simp only [sub16, BitVec.toNat_sub, Bool.toNat_false]
  omega

theorem incrementLaw_increment8 {x c : Byte} (h : t.ccr = (increment8 x c).ccr) :
    IncrementLaw x (increment8 x c).val t :=
  ⟨BitVec.toNat_add x 1#8, flags_of_putNZV h⟩

theorem decrementLaw_decrement8 {x c : Byte} (h : t.ccr = (decrement8 x c).ccr) :
    DecrementLaw x (decrement8 x c).val t := by
  refine ⟨?_, flags_of_putNZV h⟩
  have hx := x.isLt
  simp only [decrement8, BitVec.toNat_sub, BitVec.toNat_ofNat]
  omega

/-- NEG is a subtraction from 0, so its flags are those of the subtract law. -/
theorem negateLaw_negate8 {x c : Byte} (h : t.ccr = (negate8 x c).ccr) : NegateLaw x (negate8 x c).val t := by
  have hlaw : SubLaw 8 0#8 x false (negate8 x c).val t := subLaw_sub8 h
  have hvalue := hlaw.value
  have hx := x.isLt
  refine ⟨?_, hlaw.negative, hlaw.zero, ?_, ?_⟩
  · simp only [BitVec.toNat_ofNat, Bool.toNat_false] at hvalue
    omega
  · refine hlaw.overflow.trans (eq_not_fits ?_).symm
    have hint := BitVec.toInt_eq_toNat_cond x
    have h80 : x = 0x80#8 ↔ x.toNat = 128 := BitVec.toNat_inj.symm
    simp only [decide_eq_true_eq, h80, BitVec.toInt_zero, Bool.toNat_false]
    omega
  · rw [hlaw.carry]
    have h0 : x = 0#8 ↔ x.toNat = 0 := BitVec.toNat_inj.symm
    simp only [ne_eq, h0, BitVec.toNat_ofNat, Bool.toNat_false, decide_eq_decide]
    omega

theorem testLaw_test8 {x c : Byte} (h : t.ccr = test8 x c) : TestLaw x t := flags_of_putNZVC h

theorem clearLaw_clearFlags {c : Byte} (h : t.ccr = clearFlags c) : ClearLaw t := flags_of_putNZVC h

/-! ## A 16-bit register after it is written -/

theorem reg16_setReg16_same (s : State) (r : Reg16) (v : Word) : (s.setReg16 r v).reg16 r = v := by
  cases r with
  | d => exact join_hiByte_loByte v
  | x | y | sp => rfl

theorem reg16_setCcr (s : State) (r : Reg16) (c : Byte) : ({ s with ccr := c } : State).reg16 r = s.reg16 r := by
  cases r <;> rfl

theorem regOp_reg16 (r : Reg16) (f : Word → Word → Byte → Res16) (op : Operand16) (s : State) :
    (regOp r f op s).reg16 r = (f (s.reg16 r) (operand16 op s) s.ccr).val :=
  (reg16_setCcr ..).trans (reg16_setReg16_same ..)

/-! ## One rule for each shape of instruction -/

theorem adds_of_exec {r : Acc} {op : Operand8} {k : Byte → Bool}
    (he : exec i s = .next (accOp r (fun x y c => add8 x y (k c) c) op s)) : Adds i r op (k s.ccr) s := by
  refine Effect.runs (accOp_effect s r (fun _ _ _ => add8_flagsKept _ _ _ _) op) he (accOp_pc ..) ?_
  rw [accOp_acc]
  exact addLaw_add8 (accOp_ccr ..)

theorem subtracts_of_exec {r : Acc} {op : Operand8} {k : Byte → Bool}
    (he : exec i s = .next (accOp r (fun x y c => sub8 x y (k c) c) op s)) : Subtracts i r op (k s.ccr) s := by
  refine Effect.runs (accOp_effect s r (fun _ _ _ => sub8_flagsKept _ _ _ _) op) he (accOp_pc ..) ?_
  rw [accOp_acc]
  exact subLaw_sub8 (accOp_ccr ..)

theorem compares_of_exec {r : Acc} {op : Operand8}
    (he : exec i s = .next (accTest r (fun x y c => (sub8 x y false c).ccr) op s)) : Compares i r op s :=
  ⟨_, Effect.runs (accTest_effect s r (fun _ _ _ => sub8_flagsKept _ _ _ _) op) he (accTest_pc ..) (subLaw_sub8 rfl)⟩

theorem compares16_of_exec {r : Reg16} {op : Operand16} (he : exec i s = .next (regCompare r op s)) :
    Compares16 i r op s :=
  ⟨_, (regCompare_effect s r op).runs he (regCompare_pc ..) (subLaw_sub16 rfl)⟩

/-- A read-modify-write instruction, by the law of the operation on the byte (20_memory.md R69). -/
theorem modifies_of_exec {m : Mem} {flags : List Flag} {f : Byte → Byte → Res8} {law : Byte → Byte → State → Prop}
    (he : exec i s = .next (readModifyWrite m f s)) (hf : ∀ x c, FlagsKept flags c (f x c).ccr)
    (hlaw : ∀ x t, t.ccr = (f x s.ccr).ccr → law x (f x s.ccr).val t) : Modifies i m flags s law :=
  ⟨_, (readModifyWrite_effect s m hf).runs he (readModifyWrite_pc ..)
    ⟨hlaw _ _ (readModifyWrite_ccr ..), stored_store rfl rfl rfl (memByte_readModifyWrite s m f)⟩⟩

/-- An instruction on an accumulator, by the law of the operation on the byte. -/
theorem rewrites_of_exec {r : Acc} {flags : List Flag} {f : Byte → Byte → Res8} {law : Byte → Byte → State → Prop}
    (he : exec i s = .next (accUnary r f s)) (hf : ∀ x c, FlagsKept flags c (f x c).ccr)
    (hlaw : ∀ x t, t.ccr = (f x s.ccr).ccr → law x (f x s.ccr).val t) : Rewrites i r flags s law := by
  refine (accUnary_effect s r hf).runs he (accUnary_pc ..) ?_
  rw [accUnary_acc]
  exact hlaw _ _ (accUnary_ccr ..)

/-! ## The instructions -/

/-- Settles O33. -/
theorem additionsFollowTheAddLaw : Obligations.AdditionsFollowTheAddLaw := fun _ _ =>
  ⟨adds_of_exec (k := fun _ => false) rfl, adds_of_exec (k := (getFlag · .c)) rfl,
    adds_of_exec (k := (getFlag · .c)) rfl, adds_of_exec (k := fun _ => false) rfl,
    adds_of_exec (k := fun _ => false) rfl⟩

/-- Settles O34; CBA compares with B as an immediate operand does. -/
theorem subtractionsFollowTheSubtractLaw : Obligations.SubtractionsFollowTheSubtractLaw := fun _ _ =>
  ⟨subtracts_of_exec (k := fun _ => false) rfl, subtracts_of_exec (k := (getFlag · .c)) rfl,
    subtracts_of_exec (k := (getFlag · .c)) rfl, subtracts_of_exec (k := fun _ => false) rfl,
    subtracts_of_exec (k := fun _ => false) rfl, compares_of_exec rfl, compares_of_exec rfl, compares_of_exec rfl⟩

/-- Settles O35. -/
theorem wordArithmeticFollowsTheWordLaws : Obligations.WordArithmeticFollowsTheWordLaws := by
  intro s op
  refine ⟨?_, ?_, compares16_of_exec rfl, compares16_of_exec rfl, compares16_of_exec rfl⟩
  · refine Effect.runs (regOp_effect s .d (fun _ _ _ => add16_flagsKept _ _ _) op) rfl (regOp_pc ..) ?_
    rw [regOp_reg16]
    exact addLaw_add16 (regOp_ccr ..)
  · refine Effect.runs (regOp_effect s .d (fun _ _ _ => sub16_flagsKept _ _ _) op) rfl (regOp_pc ..) ?_
    rw [regOp_reg16]
    exact subLaw_sub16 (regOp_ccr ..)

/-- Settles O36. -/
theorem incrementsAndDecrementsKeepCarry : Obligations.IncrementsAndDecrementsKeepCarry := by
  intro s m
  have hinc : ∀ x c, FlagsKept [.n, .z, .v] c (increment8 x c).ccr := fun x c => increment8_flagsKept c x
  have hdec : ∀ x c, FlagsKept [.n, .z, .v] c (decrement8 x c).ccr := fun x c => decrement8_flagsKept c x
  exact ⟨modifies_of_exec rfl hinc fun _ _ => incrementLaw_increment8,
    rewrites_of_exec rfl hinc fun _ _ => incrementLaw_increment8,
    rewrites_of_exec rfl hinc fun _ _ => incrementLaw_increment8,
    modifies_of_exec rfl hdec fun _ _ => decrementLaw_decrement8,
    rewrites_of_exec rfl hdec fun _ _ => decrementLaw_decrement8,
    rewrites_of_exec rfl hdec fun _ _ => decrementLaw_decrement8⟩

/-- Settles O37. -/
theorem negationsSubtractFromZero : Obligations.NegationsSubtractFromZero := by
  intro s m
  have hneg : ∀ x c, FlagsKept [.n, .z, .v, .c] c (negate8 x c).ccr := fun x c => sub8_flagsKept c 0#8 x false
  exact ⟨modifies_of_exec rfl hneg fun _ _ => negateLaw_negate8, rewrites_of_exec rfl hneg fun _ _ => negateLaw_negate8,
    rewrites_of_exec rfl hneg fun _ _ => negateLaw_negate8⟩

/-- Settles O38: CLR stores without a read, so its effect is one store and the flags. -/
theorem testsAndClearsSetFixedFlags : Obligations.TestsAndClearsSetFixedFlags := by
  intro s m
  refine ⟨?_, ?_, ?_, ?_, ?_, ?_⟩
  · exact Effect.runs (((Effect.refl s).touch _).setCcr (test8_flagsKept _ _)) rfl (touch_pc ..) (testLaw_test8 rfl)
  · exact Effect.runs (ccr_effect s (test8_flagsKept _ _)) rfl rfl (testLaw_test8 rfl)
  · exact Effect.runs (ccr_effect s (test8_flagsKept _ _)) rfl rfl (testLaw_test8 rfl)
  · exact Effect.runs ((ccr_effect s (clearFlags_flagsKept _)).store _ _) rfl (store_pc ..)
      ⟨stored_store (s' := { s with ccr := clearFlags s.ccr }) rfl rfl rfl fun _ => rfl,
        clearLaw_clearFlags (store_ccr ..)⟩
  · exact Effect.runs (setAcc_effect s .a _ (clearFlags_flagsKept _)) rfl rfl ⟨rfl, clearLaw_clearFlags rfl⟩
  · exact Effect.runs (setAcc_effect s .b 0x00#8 (clearFlags_flagsKept _)) rfl rfl ⟨rfl, clearLaw_clearFlags rfl⟩

end Sys2Proof.Machine

/-!
PROOFS. Decimal adjust, multiply and the divides (40_arithmetic.md R146, R150, R151, R155).
-/

namespace Sys2Proof.Machine

variable {s t : State} {i : Instr}

/-! ## DAA -/

/-- The value of `x` after the first correction of DAA, with `h` for H. -/
def daaLow (h : Bool) (x : Nat) : Nat := if h = true ∨ 9 < x % 16 then x + 6 else x

/-- DAA makes its second correction of the value `low`, with `c` for C (D2). -/
@[reducible] def DaaHigh (c : Bool) (low : Nat) : Prop := c = true ∨ 256 ≤ low ∨ 9 < low / 16 % 16

/-- The value after the second correction. -/
def daaResult (c : Bool) (low : Nat) : Nat := (if DaaHigh c low then low + 0x60 else low) % 256

/-- What the model's DAA leaves, in numbers. -/
theorem decimalAdjust_eq (x c : Byte) (v : Bool) :
    (decimalAdjust x c v).val.toNat = daaResult (getFlag c .c) (daaLow (getFlag c .h) x.toNat) ∧
      getFlag (decimalAdjust x c v).ccr .c = decide (DaaHigh (getFlag c .c) (daaLow (getFlag c .h) x.toNat)) := by
  have hlow : (x.toNat + if (getFlag c .h || decide (x.toNat % 16 > 9)) = true then 0x06 else 0) =
      daaLow (getFlag c .h) x.toNat := by
    simp only [daaLow, Bool.or_eq_true, decide_eq_true_eq, gt_iff_lt]
    split <;> rfl
  have hhigh : ∀ low, (getFlag c .c || decide (low > 255) || decide (low / 16 % 16 > 9)) =
      decide (DaaHigh (getFlag c .c) low) := by
    intro low
    rw [Bool.or_assoc, Bool.decide_or, Bool.decide_or, Bool.decide_eq_true]
    rfl
  simp only [decimalAdjust, hlow, hhigh, BitVec.toNat_ofNat, getFlag_putNZVC]
  refine ⟨?_, rfl⟩
  simp only [daaResult, decide_eq_true_eq]
  split <;> rfl

/-- DAA in every state: the result, C, N and Z, and the frame. -/
theorem daa_runs (s : State) : Runs .daa s [.a] [.n, .z, .v, .c] [] s.drawn fun t =>
    t.a.toNat = daaResult (s.flag .c) (daaLow (s.flag .h) s.a.toNat) ∧
      t.flag .c = decide (DaaHigh (s.flag .c) (daaLow (s.flag .h) s.a.toNat)) ∧
      t.flag .n = t.a.msb ∧ t.flag .z = decide (t.a = 0#8) := by
  obtain ⟨hvalue, hcarry⟩ := decimalAdjust_eq s.a s.ccr ((Config.draw s.draws).getLsbD 0)
  refine Effect.runs (Effect.accUnary (Effect.refl s).drawn rfl .a fun _ _ => decimalAdjust_flagsKept _ _ _) rfl rfl
    ⟨hvalue, hcarry, ?_⟩
  obtain ⟨hn, hz, -, -⟩ := flags_of_putNZVC (accUnary_ccr s.drawn .a fun x c =>
    decimalAdjust x c ((Config.draw s.draws).getLsbD 0))
  exact ⟨hn, hz⟩

/-- Settles O39. -/
theorem decimalAdjustCorrectsBothDigits : Obligations.DecimalAdjustCorrectsBothDigits := by
  intro s
  obtain ⟨t, he, ⟨ha, hc, hnz⟩, hframe⟩ := daa_runs s
  exact ⟨t, he, ⟨ha, by rw [hc, decide_eq_true_eq]; rfl, hnz⟩, hframe⟩

/-- DAA in decimal: of the binary sum of two decimal bytes and a carry, with the carries out of its digits for H and C, it
makes the decimal sum. The first correction is made exactly where the low digits and the carry sum to more than 9. -/
theorem daa_decimal {x y c : Nat} (hx : x / 16 ≤ 9) (hx' : x % 16 ≤ 9) (hy : y / 16 ≤ 9) (hy' : y % 16 ≤ 9) (hc : c ≤ 1) :
    let low := daaLow (decide (15 < x % 16 + y % 16 + c)) ((x + y + c) % 256)
    let result := daaResult (decide (256 ≤ x + y + c)) low
    result / 16 ≤ 9 ∧ result % 16 ≤ 9 ∧
      100 * (decide (DaaHigh (decide (256 ≤ x + y + c)) low)).toNat + (result / 16 * 10 + result % 16) =
        (x / 16 * 10 + x % 16) + (y / 16 * 10 + y % 16) + c := by
  intro low result
  have hlow : low = if 9 < x % 16 + y % 16 + c then (x + y + c) % 256 + 6 else (x + y + c) % 256 := by
    simp only [low, daaLow, decide_eq_true_eq]
    congr 1
    simp only [eq_iff_iff]
    omega
  have hhigh : DaaHigh (decide (256 ≤ x + y + c)) low ↔
      9 < x / 16 + y / 16 + (x % 16 + y % 16 + c + 6) / 16 := by
    simp only [DaaHigh, decide_eq_true_eq]
    split at hlow <;> omega
  have hresult : result = (if DaaHigh (decide (256 ≤ x + y + c)) low then low + 0x60 else low) % 256 := rfl
  by_cases h : DaaHigh (decide (256 ≤ x + y + c)) low
  · rw [if_pos h] at hresult
    rw [decide_eq_true h, Bool.toNat_true]
    rw [hhigh] at h
    split at hlow <;> omega
  · rw [if_neg h] at hresult
    rw [decide_eq_false h, Bool.toNat_false]
    rw [hhigh] at h
    split at hlow <;> omega

/-- DAA after an addition by the add law. -/
theorem adjustsToDecimalSum_of_adds {op : Operand8} {cin : Bool} (h : Adds i .a op cin s) (hx : isBcd s.a = true)
    (hy : isBcd (operand8 op s) = true) : AdjustsToDecimalSum i (operand8 op s) cin s := by
  obtain ⟨t, he, ⟨hlaw, hh⟩, -⟩ := h
  obtain ⟨u, hdaa, ⟨ha, hc, -⟩, -⟩ := daa_runs t
  simp only [isBcd, Bool.and_eq_true, decide_eq_true_eq] at hx hy
  obtain ⟨hhigh, hlow, hsum⟩ := daa_decimal hx.1 hx.2 hy.1 hy.2 (Bool.toNat_le cin)
  have hvalue : t.a.toNat = (s.a.toNat + (operand8 op s).toNat + cin.toNat) % 256 := hlaw.value
  have hcarry : t.flag .c = decide (256 ≤ s.a.toNat + (operand8 op s).toNat + cin.toNat) := hlaw.carry
  rw [State.acc_a] at hh
  rw [hvalue, hcarry, hh] at ha hc
  rw [← ha] at hhigh hlow hsum
  rw [← hc] at hsum
  exact ⟨t, u, he, hdaa, by simp only [isBcd, hhigh, hlow, decide_true, Bool.and_self], hsum⟩

/-- Settles O40: an addition by the add law (O33), then DAA (`daa_decimal`). -/
theorem decimalAdjustGivesTheDecimalSum : Obligations.DecimalAdjustGivesTheDecimalSum := by
  intro s op hx
  obtain ⟨haba, hadca, -, hadda, -⟩ := additionsFollowTheAddLaw s op
  exact ⟨fun hy => ⟨adjustsToDecimalSum_of_adds hadca hx hy, adjustsToDecimalSum_of_adds hadda hx hy⟩,
    fun hy => adjustsToDecimalSum_of_adds (op := .imm s.b) haba hx hy⟩

/-! ## MUL -/

theorem multiply_val_toNat (x y c : Byte) : (multiply x y c).val.toNat = x.toNat * y.toNat := by
  have hlt : x.toNat * y.toNat < 256 * 256 := Nat.mul_lt_mul'' x.isLt y.isLt
  exact (BitVec.toNat_ofNat _ _).trans (Nat.mod_eq_of_lt hlt)

/-- C after MUL is bit 7 of the product (D18). -/
theorem multiply_carry (x y c : Byte) :
    getFlag (multiply x y c).ccr .c = decide (x.toNat * y.toNat / 128 % 2 = 1) := by
  have hbit : (multiply x y c).val.getLsbD 7 = decide ((multiply x y c).val.toNat / 128 % 2 = 1) :=
    Nat.testBit_eq_decide_div_mod_eq
  rw [← multiply_val_toNat x y c, ← hbit]
  exact (getFlag_putFlag ..).trans (if_pos rfl)

/-- Settles O41. -/
theorem multiplyGivesTheProduct : Obligations.MultiplyGivesTheProduct := by
  intro s
  refine Effect.runs (setReg16_effect s .d _ (multiply_flagsKept _ _ _)) rfl rfl ⟨?_, multiply_carry s.a s.b s.ccr⟩
  rw [← join_toNat, ← multiply_val_toNat s.a s.b s.ccr]
  exact congrArg BitVec.toNat (join_hiByte_loByte _)

/-! ## The divides -/

/-- D after a divide is the remainder. -/
theorem divideD_reg16_d (f : Word → Word → Word → Byte → DivRes) (s : State) :
    (divideD f s).reg16 .d = (f (s.reg16 .d) s.ix (Config.draw s.draws) s.ccr).remainder := join_hiByte_loByte _

/-- A divide runs, with what its computation leaves in IX, D, Z, V and C. -/
theorem divides_of_exec {f : Word → Word → Word → Byte → DivRes} {P : State → Prop}
    (he : exec i s = .next (divideD f s)) (hf : ∀ n d k c, FlagsKept [.z, .v, .c] c (f n d k c).ccr)
    (hP : ∀ t, t.ix = (f (s.reg16 .d) s.ix (Config.draw s.draws) s.ccr).quotient →
      t.reg16 .d = (f (s.reg16 .d) s.ix (Config.draw s.draws) s.ccr).remainder →
      t.ccr = (f (s.reg16 .d) s.ix (Config.draw s.draws) s.ccr).ccr → P t) :
    Runs i s [.a, .b, .ix] [.z, .v, .c] [] s.drawn P :=
  Effect.runs (divideD_effect s hf) he rfl (hP _ rfl (divideD_reg16_d f s) rfl)

/-- Quotient and remainder as words, where the quotient fits. -/
theorem quotient_remainder {n : Nat} {d : Word} (hd : d ≠ 0#16) (hfits : n / d.toNat < 65536) :
    n = (BitVec.ofNat 16 (n / d.toNat)).toNat * d.toNat + (BitVec.ofNat 16 (n % d.toNat)).toNat ∧
      (BitVec.ofNat 16 (n % d.toNat)).toNat < d.toNat := by
  have hpos : 0 < d.toNat := Nat.pos_of_ne_zero fun h0 => hd (BitVec.eq_of_toNat_eq h0)
  have hmod : n % d.toNat < d.toNat := Nat.mod_lt _ hpos
  rw [BitVec.toNat_ofNat, BitVec.toNat_ofNat, Nat.mod_eq_of_lt hfits, Nat.mod_eq_of_lt (hmod.trans d.isLt)]
  exact ⟨(Nat.div_add_mod' n d.toNat).symm, hmod⟩

/-- Settles O42. -/
theorem integerDivideGivesQuotientAndRemainder : Obligations.IntegerDivideGivesQuotientAndRemainder := by
  intro s
  refine divides_of_exec rfl integerDivide_flagsKept fun t hq hr hccr => ?_
  unfold integerDivide at hq hr hccr
  split
  · next h0 =>
    rw [if_pos h0] at hq hccr
    exact ⟨hq, flags_of_putZVC hccr⟩
  · next h0 =>
    simp only [if_neg h0] at hq hr hccr
    obtain ⟨hz, hv, hc⟩ := flags_of_putZVC hccr
    obtain ⟨hdivides, hlt⟩ := quotient_remainder h0 (Nat.lt_of_le_of_lt (Nat.div_le_self _ _) (s.reg16 .d).isLt)
    rw [← hq, ← hr] at hdivides
    rw [← hr] at hlt
    exact ⟨hdivides, hlt, by rw [hz, hq]; rfl, hv, hc⟩

/-- Settles O43: where D is below IX, the quotient of D times 65536 fits. -/
theorem fractionalDivideGivesTheFraction : Obligations.FractionalDivideGivesTheFraction := by
  intro s
  refine divides_of_exec rfl fractionalDivide_flagsKept fun t hq hr hccr => ?_
  unfold fractionalDivide at hq hr hccr
  split
  · next h0 =>
    rw [if_pos h0] at hq hccr
    exact ⟨hq, flags_of_putZVC hccr⟩
  · next h0 =>
    rw [if_neg h0] at hq hr hccr
    split
    · next hle =>
      rw [if_pos hle] at hq hccr
      exact ⟨hq, flags_of_putZVC hccr⟩
    · next hnot =>
      simp only [if_neg hnot] at hq hr hccr
      obtain ⟨hz, hv, hc⟩ := flags_of_putZVC hccr
      have hfits : (s.reg16 .d).toNat * 65536 / s.ix.toNat < 65536 := Nat.div_lt_of_lt_mul (by omega)
      obtain ⟨hdivides, hlt⟩ := quotient_remainder h0 hfits
      rw [← hq, ← hr] at hdivides
      rw [← hr] at hlt
      exact ⟨hdivides, hlt, by rw [hz, hq]; rfl, hv, hc⟩

end Sys2Proof.Machine

/-!
PROOFS. Logic, bits, shifts and rotates (41_bitwise.md).
-/

namespace Sys2Proof.Machine

variable {s t : State} {i : Instr}

/-! ## Logic -/

theorem nzLaw_nz8 {r c : Byte} (h : t.ccr = nz8 r c) : NzLaw 8 r t :=
  have ⟨hn, hz, hv⟩ := flags_of_putNZV h
  ⟨hn, hz, hv⟩

theorem nzLaw_nz16 {r : Word} {c : Byte} (h : t.ccr = nz16 r c) : NzLaw 16 r t :=
  have ⟨hn, hz, hv⟩ := flags_of_putNZV h
  ⟨hn, hz, hv⟩

/-- A bitwise operation on an accumulator, by what it does to each bit. -/
theorem combines_of_exec {r : Acc} {op : Operand8} {g : Byte → Byte → Byte} {f : Bool → Bool → Bool}
    (he : exec i s = .next (accOp r (fun x y c => ⟨g x y, nz8 (g x y) c⟩) op s))
    (hg : ∀ (x y : Byte) (k : Fin 8), (g x y)[k] = f x[k] y[k]) : Combines i r op f s := by
  refine Effect.runs (accOp_effect s r (fun _ _ _ => nz8_flagsKept _ _) op) he (accOp_pc ..) ?_
  rw [accOp_acc]
  exact ⟨nzLaw_nz8 (accOp_ccr ..), hg _ _⟩

theorem tests_of_exec {r : Acc} {op : Operand8} (he : exec i s = .next (accTest r (fun x y c => nz8 (x &&& y) c) op s)) :
    Runs i s [] [.n, .z, .v] [] (afterOperand8 op s) (NzLaw 8 (s.acc r &&& operand8 op s)) :=
  Effect.runs (accTest_effect s r (fun _ _ _ => nz8_flagsKept _ _) op) he (accTest_pc ..) (nzLaw_nz8 rfl)

/-- Settles O44. -/
theorem logicWorksBitByBit : Obligations.LogicWorksBitByBit := by
  intro s op
  have hand : ∀ (x y : Byte) (k : Fin 8), (x &&& y)[k] = (x[k] && y[k]) := fun x y k => BitVec.getElem_and ..
  have hxor : ∀ (x y : Byte) (k : Fin 8), (x ^^^ y)[k] = (x[k] ^^ y[k]) := fun x y k => BitVec.getElem_xor ..
  have hor : ∀ (x y : Byte) (k : Fin 8), (x ||| y)[k] = (x[k] || y[k]) := fun x y k => BitVec.getElem_or ..
  exact ⟨combines_of_exec rfl hand, combines_of_exec rfl hand, combines_of_exec rfl hxor, combines_of_exec rfl hxor,
    combines_of_exec rfl hor, combines_of_exec rfl hor, tests_of_exec (r := .a) rfl, tests_of_exec (r := .b) rfl⟩

/-! ## Bits set, cleared and complemented -/

theorem getElem_xor_ones (x : Byte) (k : Fin 8) : (x ^^^ 0xFF#8)[k] = !x[k] := by
  rw [show 0xFF#8 = BitVec.allOnes 8 from rfl, BitVec.xor_allOnes]
  exact BitVec.getElem_not ..

theorem complementLaw_complement8 {x c : Byte} (h : t.ccr = (complement8 x c).ccr) :
    ComplementLaw x (complement8 x c).val t := by
  have hflag : ∀ f, t.flag f = if f = .c then true else getFlag (nz8 (complement8 x c).val c) f := by
    intro f
    simp only [State.flag, h, complement8, getFlag_putFlag, eq_comm]
  exact ⟨getElem_xor_ones x, ⟨(hflag .n).trans (getFlag_nz8 _ c .n), (hflag .z).trans (getFlag_nz8 _ c .z),
    (hflag .v).trans (getFlag_nz8 _ c .v)⟩, hflag .c⟩

/-- Settles O45. -/
theorem bitClearSetAndComplement : Obligations.BitClearSetAndComplement := by
  intro s m mm
  have hcom : ∀ x c, FlagsKept [.n, .z, .v, .c] c (complement8 x c).ccr := fun x c => complement8_flagsKept c x
  have hlaw : ∀ x t, t.ccr = (complement8 x s.ccr).ccr → ComplementLaw x (complement8 x s.ccr).val t :=
    fun _ _ => complementLaw_complement8
  refine ⟨modifies_of_exec rfl (fun x c => bitClear8_flagsKept c mm x) fun x t h => ⟨fun k => ?_, nzLaw_nz8 h⟩,
    modifies_of_exec rfl (fun x c => bitSet8_flagsKept c mm x) fun x t h =>
      ⟨fun k => BitVec.getElem_or .., nzLaw_nz8 h⟩,
    modifies_of_exec rfl hcom hlaw, rewrites_of_exec rfl hcom hlaw, rewrites_of_exec rfl hcom hlaw⟩
  exact (BitVec.getElem_and ..).trans (congrArg _ (getElem_xor_ones mm k))

/-! ## Shifts and rotates -/

theorem shiftLaw_shifted8 {r c : Byte} {out : Bool} (h : t.ccr = (shifted8 r out c).ccr) : ShiftLaw 8 r out t :=
  have ⟨hn, hz, hv, hc⟩ := flags_of_putNZVC h
  ⟨hc, hn, hz, hv⟩

theorem shiftLaw_shifted16 {r : Word} {c : Byte} {out : Bool} (h : t.ccr = (shifted16 r out c).ccr) :
    ShiftLaw 16 r out t :=
  have ⟨hn, hz, hv, hc⟩ := flags_of_putNZVC h
  ⟨hc, hn, hz, hv⟩

theorem msb_eq_decide_le (x : Byte) : x.msb = decide (128 ≤ x.toNat) := BitVec.msb_eq_decide x

/-- The bit that leaves to the right. -/
theorem getLsbD_zero_eq_decide {w : Nat} (x : BitVec w) : x.getLsbD 0 = decide (x.toNat % 2 = 1) := Nat.testBit_zero _

/-- A left shift with the bit `cin` coming in, whose result `r` is in numbers. -/
theorem leftLaw_of {x r c : Byte} {cin : Bool} (hr : r.toNat = (2 * x.toNat + cin.toNat) % 256)
    (h : t.ccr = (shifted8 r x.msb c).ccr) : LeftLaw cin x r t :=
  ⟨hr, msb_eq_decide_le x ▸ shiftLaw_shifted8 h⟩

theorem rightLaw_of {x r c : Byte} {cin : Bool} (hr : r.toNat = x.toNat / 2 + 128 * cin.toNat)
    (h : t.ccr = (shifted8 r (x.getLsbD 0) c).ccr) : RightLaw cin x r t :=
  ⟨hr, getLsbD_zero_eq_decide x ▸ shiftLaw_shifted8 h⟩

theorem leftLaw_shiftLeft8 {x c : Byte} (h : t.ccr = (shiftLeft8 x c).ccr) : LeftLaw false x (shiftLeft8 x c).val t := by
  refine leftLaw_of ?_ h
  rw [shiftLeft8, shifted8, BitVec.toNat_shiftLeft, Nat.shiftLeft_eq, Nat.mul_comm]
  rfl

theorem leftLaw_rotateLeft8 {x c : Byte} (h : t.ccr = (rotateLeft8 x c).ccr) :
    LeftLaw (getFlag c .c) x (rotateLeft8 x c).val t := by
  refine leftLaw_of ?_ h
  have hbit := Bool.toNat_lt (getFlag c .c)
  have hdouble : (x <<< 1).toNat = 2 ^ 1 * (x.toNat % 128) := by
    rw [BitVec.toNat_shiftLeft, Nat.shiftLeft_eq]
    omega
  have hin : ((BitVec.ofBool (getFlag c .c)).setWidth 8).toNat = (getFlag c .c).toNat := by
    cases getFlag c .c <;> rfl
  rw [rotateLeft8, shifted8, BitVec.toNat_or, hdouble, hin, ← Nat.two_pow_add_eq_or_of_lt hbit]
  omega

theorem rightLaw_shiftRight8 {x c : Byte} (h : t.ccr = (shiftRight8 x c).ccr) :
    RightLaw false x (shiftRight8 x c).val t := by
  refine rightLaw_of ?_ h
  rw [shiftRight8, shifted8, BitVec.toNat_ushiftRight, Nat.shiftRight_eq_div_pow]
  rfl

theorem rightLaw_rotateRight8 {x c : Byte} (h : t.ccr = (rotateRight8 x c).ccr) :
    RightLaw (getFlag c .c) x (rotateRight8 x c).val t := by
  refine rightLaw_of ?_ h
  have hx := x.isLt
  have hlow : (x.extractLsb' 1 7).toNat = x.toNat / 2 := by
    rw [BitVec.extractLsb'_toNat, Nat.shiftRight_eq_div_pow]
    omega
  have happend := BitVec.toNat_append (BitVec.ofBool (getFlag c .c)) (x.extractLsb' 1 7)
  rw [hlow, BitVec.toNat_ofBool, Nat.shiftLeft_eq, Nat.mul_comm, ← Nat.two_pow_add_eq_or_of_lt (by omega)] at happend
  exact happend.trans (Nat.add_comm _ _)

theorem signedRightLaw_arithShiftRight8 {x c : Byte} (h : t.ccr = (arithShiftRight8 x c).ccr) :
    SignedRightLaw x (arithShiftRight8 x c).val t := by
  refine ⟨?_, getLsbD_zero_eq_decide x ▸ shiftLaw_shifted8 h⟩
  rw [arithShiftRight8, shifted8, BitVec.toInt_sshiftRight, Int.shiftRight_eq_div_pow]
  rfl

/-- A shift of D, which holds the result afterwards. -/
theorem shiftsD_of_exec {u : Res16} {P : State → Prop} (he : exec i s = .next { s.setReg16 .d u.val with ccr := u.ccr })
    (hf : FlagsKept [.n, .z, .v, .c] s.ccr u.ccr) (hP : ∀ t, t.reg16 .d = u.val → t.ccr = u.ccr → P t) :
    Runs i s [.a, .b] [.n, .z, .v, .c] [] s P :=
  Effect.runs (setReg16_effect s .d u.val hf) he rfl (hP _ (reg16_setReg16_same s .d u.val) rfl)

/-- Every shift and rotate of a byte writes N, Z, V and C. -/
theorem shift8_flagsKept (r : Byte → Byte → Byte) (out : Byte → Byte → Bool) (x c : Byte) :
    FlagsKept [.n, .z, .v, .c] c (shifted8 (r x c) (out x c) c).ccr := shifted8_flagsKept c _ _

/-- Settles O46. -/
theorem leftShiftsDouble : Obligations.LeftShiftsDouble := by
  intro s m
  refine ⟨modifies_of_exec rfl (shift8_flagsKept _ _) fun _ _ => leftLaw_shiftLeft8,
    rewrites_of_exec rfl (shift8_flagsKept _ _) fun _ _ => leftLaw_shiftLeft8,
    rewrites_of_exec rfl (shift8_flagsKept _ _) fun _ _ => leftLaw_shiftLeft8,
    modifies_of_exec rfl (shift8_flagsKept _ _) fun _ _ => leftLaw_rotateLeft8,
    rewrites_of_exec rfl (shift8_flagsKept _ _) fun _ _ => leftLaw_rotateLeft8,
    rewrites_of_exec rfl (shift8_flagsKept _ _) fun _ _ => leftLaw_rotateLeft8,
    shiftsD_of_exec rfl (shifted16_flagsKept _ _ _) fun t hd hccr => ⟨?_, ?_⟩⟩
  · rw [hd, shiftLeft16, shifted16, BitVec.toNat_shiftLeft, Nat.shiftLeft_eq, Nat.mul_comm]
  · rw [hd]
    exact BitVec.msb_eq_decide (s.reg16 .d) ▸ shiftLaw_shifted16 hccr

/-- Settles O47. -/
theorem rightShiftsHalve : Obligations.RightShiftsHalve := by
  intro s m
  refine ⟨modifies_of_exec rfl (shift8_flagsKept _ _) fun _ _ => rightLaw_shiftRight8,
    rewrites_of_exec rfl (shift8_flagsKept _ _) fun _ _ => rightLaw_shiftRight8,
    rewrites_of_exec rfl (shift8_flagsKept _ _) fun _ _ => rightLaw_shiftRight8,
    modifies_of_exec rfl (shift8_flagsKept _ _) fun _ _ => rightLaw_rotateRight8,
    rewrites_of_exec rfl (shift8_flagsKept _ _) fun _ _ => rightLaw_rotateRight8,
    rewrites_of_exec rfl (shift8_flagsKept _ _) fun _ _ => rightLaw_rotateRight8,
    modifies_of_exec rfl (shift8_flagsKept _ _) fun _ _ => signedRightLaw_arithShiftRight8,
    rewrites_of_exec rfl (shift8_flagsKept _ _) fun _ _ => signedRightLaw_arithShiftRight8,
    rewrites_of_exec rfl (shift8_flagsKept _ _) fun _ _ => signedRightLaw_arithShiftRight8,
    shiftsD_of_exec rfl (shifted16_flagsKept _ _ _) fun t hd hccr => ⟨?_, ?_⟩⟩
  · rw [hd, shiftRight16, shifted16, BitVec.toNat_ushiftRight, Nat.shiftRight_eq_div_pow]
  · rw [hd]
    exact getLsbD_zero_eq_decide (s.reg16 .d) ▸ shiftLaw_shifted16 hccr

/-! ### Nine rotates -/

/-- The nine bits that a rotate moves round: the byte's, and C between bit 7 and bit 0. -/
def rotateRing (u : Res8) (j : Fin 9) : Bool := if j = 8 then getFlag u.ccr .c else u.val.getLsbD j

theorem eq_of_rotateRing {u v : Res8} (h : ∀ j, rotateRing u j = rotateRing v j) :
    u.val = v.val ∧ getFlag u.ccr .c = getFlag v.ccr .c := by
  refine ⟨BitVec.eq_of_getLsbD_eq fun k hk => ?_, h 8⟩
  have hne : (⟨k, by omega⟩ : Fin 9) ≠ 8 := Fin.ne_of_val_ne (Nat.ne_of_lt hk)
  simpa only [rotateRing, if_neg hne] using h ⟨k, by omega⟩

/-- The rotates as the obligation has them, on a byte with its condition codes. -/
def rotatedLeft (u : Res8) : Res8 := rotateLeft8 u.val u.ccr

def rotatedRight (u : Res8) : Res8 := rotateRight8 u.val u.ccr

theorem rotatedLeft_bit (u : Res8) {k : Nat} (hk : k < 8) :
    (rotatedLeft u).val.getLsbD k = if k = 0 then getFlag u.ccr .c else u.val.getLsbD (k - 1) := by
  obtain rfl | hpos := Nat.eq_zero_or_pos k
  · simp [rotatedLeft, rotateLeft8, shifted8]
  · simp [rotatedLeft, rotateLeft8, shifted8, hk, hpos.ne', BitVec.getLsbD_eq_getElem (show k - 1 < 8 by omega)]

theorem rotatedRight_bit (u : Res8) {k : Nat} (hk : k < 8) :
    (rotatedRight u).val.getLsbD k = if k = 7 then getFlag u.ccr .c else u.val.getLsbD (k + 1) := by
  refine (BitVec.getLsbD_append (x := BitVec.ofBool (getFlag u.ccr .c)) (y := u.val.extractLsb' 1 7)).trans ?_
  obtain hlt | rfl := Nat.lt_or_eq_of_le (Nat.le_of_lt_succ hk)
  · simp [hlt, hlt.ne, Nat.add_comm]
  · simp

theorem shifted8_carry (r : Byte) (out : Bool) (c : Byte) : getFlag (shifted8 r out c).ccr .c = out :=
  getFlag_shiftFlags ..

theorem rotatedLeft_carry (u : Res8) : getFlag (rotatedLeft u).ccr .c = u.val.getLsbD 7 :=
  (shifted8_carry ..).trans (BitVec.msb_eq_getLsbD_last u.val)

theorem rotatedRight_carry (u : Res8) : getFlag (rotatedRight u).ccr .c = u.val.getLsbD 0 := shifted8_carry ..

/-- A rotate to the left moves the ring by one place: C goes to bit 0 and bit 7 to C. -/
theorem rotateRing_left (u : Res8) (j : Fin 9) : rotateRing (rotatedLeft u) j = rotateRing u (j - 1) :=
  match j with
  | 0 => rotatedLeft_bit u (k := 0) (by decide)
  | 1 | 2 | 3 | 4 | 5 | 6 | 7 => rotatedLeft_bit u (by decide)
  | 8 => rotatedLeft_carry u

/-- A rotate to the right moves it the other way: bit 0 goes to C and C to bit 7. -/
theorem rotateRing_right (u : Res8) (j : Fin 9) : rotateRing (rotatedRight u) j = rotateRing u (j + 1) :=
  match j with
  | 0 | 1 | 2 | 3 | 4 | 5 | 6 | 7 => rotatedRight_bit u (by decide)
  | 8 => rotatedRight_carry u

theorem rotateRing_left_iterate (u : Res8) (n : Nat) (j : Fin 9) :
    rotateRing (rotatedLeft^[n] u) j = rotateRing u (j - n • 1) := by
  induction n generalizing u with
  | zero => simp
  | succ n ih => rw [Function.iterate_succ_apply, ih, rotateRing_left, succ_nsmul, sub_sub]

/-- Settles O48. -/
theorem rotatesGoRoundInNineSteps : Obligations.RotatesGoRoundInNineSteps := by
  intro x ccr
  obtain ⟨hnine, hnine'⟩ := eq_of_rotateRing (u := rotatedLeft^[9] ⟨x, ccr⟩) (v := ⟨x, ccr⟩) fun j => by
    rw [rotateRing_left_iterate, show 9 • (1 : Fin 9) = 0 from rfl, sub_zero]
  obtain ⟨hright, hright'⟩ := eq_of_rotateRing (u := rotatedRight (rotatedLeft ⟨x, ccr⟩)) (v := ⟨x, ccr⟩) fun j => by
    rw [rotateRing_right, rotateRing_left, add_sub_cancel_right]
  obtain ⟨hleft, hleft'⟩ := eq_of_rotateRing (u := rotatedLeft (rotatedRight ⟨x, ccr⟩)) (v := ⟨x, ccr⟩) fun j => by
    rw [rotateRing_left, rotateRing_right, sub_add_cancel]
  exact ⟨hnine, hnine', hright, hright', hleft, hleft'⟩

end Sys2Proof.Machine

/-!
PROOFS. Loads, stores, index registers, the stack and transfers (42_index_stack.md, 43_data_transfer.md).
-/

namespace Sys2Proof.Machine

variable {s : State} {i : Instr}

/-! ## Loads and stores -/

theorem loads_of_exec {r : Acc} {op : Operand8} (he : exec i s = .next (accLoad r op s)) : Loads i r op s :=
  (accLoad_effect s r op).runs he (accLoad_pc ..) ⟨accLoad_acc .., nzLaw_nz8 (accLoad_ccr ..)⟩

theorem loads16_of_exec {r : Reg16} {op : Operand16} (he : exec i s = .next (regLoad r op s)) : Loads16 i r op s :=
  (regLoad_effect s r op).runs he (regLoad_pc ..)
    ⟨(reg16_setCcr ..).trans (reg16_setReg16_same ..), nzLaw_nz16 (regLoad_ccr ..)⟩

/-- Settles O49. -/
theorem loadsFollowTheNzLaw : Obligations.LoadsFollowTheNzLaw := fun _ _ _ =>
  ⟨loads_of_exec rfl, loads_of_exec rfl, loads16_of_exec rfl, loads16_of_exec rfl, loads16_of_exec rfl,
    loads16_of_exec rfl⟩

theorem stores_of_exec {r : Acc} {m : Mem} (he : exec i s = .next (accStore r m s)) : Stores i r m s :=
  (accStore_effect s r m).runs he (accStore_pc ..)
    ⟨stored_store (s' := { s with ccr := nz8 (s.acc r) s.ccr }) rfl rfl rfl fun _ => rfl, nzLaw_nz8 (accStore_ccr ..)⟩

theorem stores16_of_exec {r : Reg16} {m : Mem} (he : exec i s = .next (regStore r m s)) : Stores16 i r m s := by
  have hstored : Stored s (regStore r m s) (effAddr m s) (hiByte (s.reg16 r)) ∧
      Stored s (regStore r m s) (effAddr m s + 1) (loByte (s.reg16 r)) :=
    stored_two (s' := { s with ccr := nz16 (s.reg16 r) s.ccr }) (ne_add_one _) rfl rfl rfl fun _ => rfl
  exact (regStore_effect s r m).runs he (regStore_pc ..) ⟨hstored.1, hstored.2, nzLaw_nz16 (regStore_ccr ..)⟩

/-- Settles O50. -/
theorem storesFollowTheNzLaw : Obligations.StoresFollowTheNzLaw := fun _ _ =>
  ⟨stores_of_exec rfl, stores_of_exec rfl, stores16_of_exec rfl, stores16_of_exec rfl, stores16_of_exec rfl,
    stores16_of_exec rfl⟩

/-! ## Index registers and SP -/

theorem toNat_add_one (x : Word) : ((x + 1).toNat : Int) = (x.toNat + 1) % 65536 := by
  rw [BitVec.toNat_add]
  rfl

theorem toNat_sub_one (x : Word) : ((x - 1).toNat : Int) = (x.toNat + -1) % 65536 := by
  have hone : (1 : Word).toNat = 1 := rfl
  rw [BitVec.toNat_sub, hone]
  omega

theorem toNat_add_neg_one (x : Word) : ((x + -1).toNat : Int) = (x.toNat + -1) % 65536 := by
  rw [← BitVec.sub_eq_add_neg]
  exact toNat_sub_one x

theorem stepsIndex_of_exec {r : Reg16} {w : Word} {amount : Int} (he : exec i s = .next (indexStep r w s))
    (hw : ((s.reg16 r + w).toNat : Int) = ((s.reg16 r).toNat + amount) % 65536) : StepsIndex i r amount s := by
  have hreg : (indexStep r w s).reg16 r = s.reg16 r + w := (reg16_setCcr ..).trans (reg16_setReg16_same ..)
  refine (indexStep_effect s r w).runs he (State.setReg16_pc ..) ⟨by rw [hreg, hw], ?_⟩
  rw [hreg]
  exact (getFlag_putZ ..).trans (if_pos rfl)

theorem transfers_of_exec {dst src : Reg16} {v : Word} {amount : Int} (he : exec i s = .next (s.setReg16 dst v))
    (hv : (v.toNat : Int) = ((s.reg16 src).toNat + amount) % 65536) : Transfers i dst src amount s := by
  refine Effect.runs (((Effect.refl s).mono (by simp) (by simp)).setReg16 dst v fun _ => id) he (State.setReg16_pc ..) ?_
  rw [reg16_setReg16_same, hv]

/-- Settles O51. -/
theorem indexArithmeticWraps : Obligations.IndexArithmeticWraps := by
  intro s
  have habx : ∀ x : Word, ((x + zext16 s.b).toNat : Int) = (x.toNat + s.b.toNat) % 65536 := fun x => by
    exact_mod_cast toNat_add_zext16 x s.b
  exact ⟨stepsIndex_of_exec rfl (toNat_add_one s.ix), stepsIndex_of_exec rfl (toNat_add_neg_one s.ix),
    stepsIndex_of_exec rfl (toNat_add_one s.iy), stepsIndex_of_exec rfl (toNat_add_neg_one s.iy),
    transfers_of_exec rfl (habx s.ix), transfers_of_exec rfl (habx s.iy)⟩

/-- Settles O52. -/
theorem pointerTransfersOffsetByOne : Obligations.PointerTransfersOffsetByOne := fun s =>
  ⟨transfers_of_exec rfl (toNat_add_one s.sp), transfers_of_exec rfl (toNat_sub_one s.sp),
    transfers_of_exec rfl (toNat_add_one s.sp), transfers_of_exec rfl (toNat_add_one s.sp),
    transfers_of_exec rfl (toNat_sub_one s.ix), transfers_of_exec rfl (toNat_sub_one s.iy),
    (exchangeD_effect s .x).runs rfl rfl ⟨rfl, join_hiByte_loByte s.ix⟩,
    (exchangeD_effect s .y).runs rfl rfl ⟨rfl, join_hiByte_loByte s.iy⟩⟩

/-! ## Pushes and pulls -/

theorem pushes_of_exec {v : Byte} (he : exec i s = .next (push v s)) : Pushes i v s :=
  (push_effect s v).runs he (push_pc ..)
    ⟨stored_store rfl rfl rfl fun y => memByte_congr rfl rfl rfl y, push_sp s v⟩

/-- The two bytes of a pushed word. -/
theorem stored_pushWord (v : Word) (s : State) :
    Stored s (pushWord v s) s.sp (loByte v) ∧ Stored s (pushWord v s) (s.sp - 1) (hiByte v) :=
  stored_two (ne_sub_one s.sp) rfl rfl rfl (memByte_pushWord v s)

theorem pushesWord_of_exec {v : Word} (he : exec i s = .next (pushWord v s)) : PushesWord i v s :=
  (pushWord_effect s v).runs he (pushWord_pc ..)
    ⟨(stored_pushWord v s).1, (stored_pushWord v s).2, (pushWord_sp s v).trans (sub_one_sub_one s.sp)⟩

/-- Settles O53. -/
theorem pushesAndPullsMoveTheStack : Obligations.PushesAndPullsMoveTheStack := fun s =>
  ⟨pushes_of_exec rfl, pushes_of_exec rfl, pushesWord_of_exec rfl, pushesWord_of_exec rfl,
    (pullAcc_effect s .a).runs rfl (pulled_pc s) ⟨rfl, rfl⟩, (pullAcc_effect s .b).runs rfl (pulled_pc s) ⟨rfl, rfl⟩,
    (pullReg_effect s .x).runs rfl (pulledWord_pc s) ⟨pullWordValue_eq s, pulledWord_sp_two s⟩,
    (pullReg_effect s .y).runs rfl (pulledWord_pc s) ⟨pullWordValue_eq s, pulledWord_sp_two s⟩⟩

/-! ## Transfers between A, B and the CCR -/

/-- Settles O54. -/
theorem accumulatorTransfersCopy : Obligations.AccumulatorTransfersCopy := fun s =>
  ⟨Effect.runs (setAcc_effect s .b s.a (nz8_flagsKept _ _)) rfl rfl ⟨rfl, nzLaw_nz8 rfl⟩,
    Effect.runs (setAcc_effect s .a s.b (nz8_flagsKept _ _)) rfl rfl ⟨rfl, nzLaw_nz8 rfl⟩,
    Effect.runs (setAcc_effect s .a s.ccr (flagsKept_self _)) rfl rfl fun _ => rfl⟩

end Sys2Proof.Machine

/-!
PROOFS. Branches, jumps and calls (44_jump_branch.md) and the instructions on the CCR (45_ccr.md).
-/

namespace Sys2Proof.Machine

variable {s t u : State} {i : Instr} {rr : Byte}

/-! ## Branches -/

theorem branchTarget_eq (rr : Byte) (s : State) : branchTarget rr s = BitVec.ofInt 16 (s.pc.toNat + rr.toInt) := by
  rw [BitVec.ofInt_add, BitVec.ofInt_natCast, BitVec.ofNat_toNat, BitVec.setWidth_eq]
  rfl

theorem branchIf_pc_eq (taken : Bool) (rr : Byte) (s : State) :
    (branchIf taken rr s).pc = BitVec.ofInt 16 (s.pc.toNat + if taken then rr.toInt else 0) := by
  cases taken with
  | true => exact branchTarget_eq rr s
  | false => simp [branchIf]

theorem branches_of_exec {taken : Bool} (he : exec i s = .next (branchIf taken rr s)) : Branches i rr taken s s :=
  (branchIf_effect s taken rr).jumps he (branchIf_pc_eq taken rr s) trivial

/-- Settles O55. -/
theorem branchesGoToTheirTarget : Obligations.BranchesGoToTheirTarget := fun _ _ =>
  ⟨branches_of_exec rfl, branches_of_exec rfl, branches_of_exec rfl, branches_of_exec rfl, branches_of_exec rfl,
    branches_of_exec rfl, branches_of_exec rfl, branches_of_exec rfl, branches_of_exec rfl, branches_of_exec rfl,
    branches_of_exec rfl, branches_of_exec rfl, branches_of_exec rfl, branches_of_exec rfl, branches_of_exec rfl,
    branches_of_exec rfl⟩

/-- No bit under the mask is set. -/
theorem and_eq_zero_iff (x mm : Byte) : x &&& mm = 0#8 ↔ ∀ k : Fin 8, mm[k] = true → x[k] = false := by
  constructor
  · intro h k hmm
    have hbit : (x[k] && mm[k]) = (0#8)[k] := (BitVec.getElem_and ..).symm.trans (congrArg (fun z : Byte => z[k]) h)
    simpa [hmm] using hbit
  · intro h
    refine BitVec.eq_of_getElem_eq fun k hk => ?_
    have hbit := h ⟨k, hk⟩
    cases hmm : mm[k] <;> simp_all

/-- Every bit under the mask is set. -/
theorem and_eq_mask_iff (x mm : Byte) : x &&& mm = mm ↔ ∀ k : Fin 8, mm[k] = true → x[k] = true := by
  constructor
  · intro h k hmm
    have hbit : (x[k] && mm[k]) = mm[k] := (BitVec.getElem_and ..).symm.trans (congrArg (fun z : Byte => z[k]) h)
    simpa [hmm] using hbit
  · intro h
    refine BitVec.eq_of_getElem_eq fun k hk => ?_
    have hbit := h ⟨k, hk⟩
    cases hmm : mm[k] <;> simp_all

theorem bitBranches_of_exec {x : Word} {taken taken' : Bool} (htaken : taken' = taken)
    (he : exec i s = .next (branchIf taken' rr (touch x s))) : Branches i rr taken (touch x s) s := by
  subst htaken
  refine (bitBranch_effect s _ x rr).jumps he ?_ trivial
  rw [branchIf_pc_eq, touch_pc]

/-- Settles O56. -/
theorem bitBranchesTestTheMaskedBits : Obligations.BitBranchesTestTheMaskedBits := by
  intro s m mm rr x
  exact ⟨bitBranches_of_exec (decide_eq_decide.2 (and_eq_zero_iff x mm)) rfl,
    bitBranches_of_exec (decide_eq_decide.2 (and_eq_mask_iff x mm)) rfl⟩

/-! ## Branches after a comparison -/

section Compare

variable {w : Nat} {x y d : BitVec (w + 1)}

/-- The flags after a comparison, as the order of the operands: C is the unsigned order, N xor V the signed one. -/
theorem compare_flags (h : SubLaw (w + 1) x y false d t) :
    t.flag .c = decide (x.toNat < y.toNat) ∧ t.flag .z = decide (x = y) ∧
      (t.flag .n != t.flag .v) = decide (x.toInt < y.toInt) := by
  have hvalue := h.value
  have hoverflow : t.flag .v = decide ¬(-2 ^ w ≤ x.toInt - y.toInt - false.toNat ∧
      x.toInt - y.toInt - false.toNat < 2 ^ w) := by
    rw [h.overflow, Nat.add_sub_cancel, decide_not, Bool.decide_and]
  have hx := toInt_cases x
  have hy := toInt_cases y
  have hd := toInt_cases d
  have heq : x = y ↔ x.toNat = y.toNat := BitVec.toNat_inj.symm
  have hzero : d = 0#(w + 1) ↔ d.toNat = 0 := by rw [← BitVec.toNat_inj, BitVec.toNat_zero]
  rw [pow_succ'] at hvalue
  rw [h.zero, h.negative, hoverflow]
  generalize (2 : Int) ^ w = p at *
  have hwrap := emod_cases (v := (x.toNat : Int) - y.toNat - false.toNat) (m := 2 * p)
  rw [← hvalue, Bool.toNat_false] at hwrap
  refine ⟨h.carry, ?_, ?_⟩
  · rw [decide_eq_decide, heq, hzero]
    omega
  · rw [Bool.eq_iff_iff, bne_iff_ne, ne_eq, BitVec.msb_eq_toInt, decide_eq_decide, decide_eq_true_eq, Bool.toNat_false]
    omega

end Compare

/-- A branch goes by its condition, wherever its fetch has left PC. -/
theorem branch_goes {k : Cond} {p : Bool} (he : ∀ s, exec i s = .next (branchIf (condHolds k s.ccr) rr s))
    (hp : condHolds k t.ccr = p) (pcNext : Word) :
    ∃ u, exec i { t with pc := pcNext } = .next u ∧ u.pc = if p then pcNext + rr.signExtend 16 else pcNext :=
  ⟨_, he _, by rw [← hp]; rfl⟩

/-- After a comparison the ten conditions are the ten orders. -/
theorem ordersBy_of_subLaw {w : Nat} {x y d : BitVec (w + 1)} (h : SubLaw (w + 1) x y false d t) :
    OrdersBy (w + 1) x y rr t := by
  obtain ⟨hc, hz, hlt⟩ := compare_flags h
  have hge : (t.flag .n == t.flag .v) = decide (y.toInt ≤ x.toInt) := by
    have hnot : (!(t.flag .n == t.flag .v)) = decide (x.toInt < y.toInt) := hlt
    rw [← Bool.not_not (t.flag .n == t.flag .v), hnot, ← decide_not, decide_eq_decide, not_lt]
  have heq : x = y ↔ x.toNat = y.toNat := BitVec.toNat_inj.symm
  have heq' : x = y ↔ x.toInt = y.toInt := BitVec.toInt_inj.symm
  simp only [State.flag] at hc hz hlt hge
  refine ⟨branch_goes (k := .higher) (fun _ => rfl) ?_, branch_goes (k := .lowerSame) (fun _ => rfl) ?_,
    branch_goes (k := .carryClear) (fun _ => rfl) ?_, branch_goes (k := .carrySet) (fun _ => rfl) hc,
    branch_goes (k := .notEqual) (fun _ => rfl) ?_, branch_goes (k := .equal) (fun _ => rfl) hz,
    branch_goes (k := .greaterEqual) (fun _ => rfl) hge, branch_goes (k := .lessThan) (fun _ => rfl) hlt,
    branch_goes (k := .greater) (fun _ => rfl) ?_, branch_goes (k := .lessEqual) (fun _ => rfl) ?_⟩
  all_goals
    simp only [condHolds, hc, hz, hlt, hge, ← decide_not, ← Bool.decide_and, ← Bool.decide_or, decide_eq_decide]
  case refine_1 | refine_2 =>
    rw [heq]
    omega
  case refine_3 => exact not_lt
  case refine_5 | refine_6 =>
    rw [heq']
    omega

theorem forall_mem_pair {α : Type} {p : α → Prop} {a b : α} (ha : p a) (hb : p b) : ∀ x ∈ [a, b], p x :=
  List.forall_mem_cons.2 ⟨ha, List.forall_mem_singleton.2 hb⟩

theorem orders8_of_compares {r : Acc} {op : Operand8} (h : Compares i r op s) :
    ∃ t, exec i s = .next t ∧ OrdersBy 8 (s.acc r) (operand8 op s) rr t := by
  obtain ⟨d, t, he, hlaw, -⟩ := h
  exact ⟨t, he, ordersBy_of_subLaw (w := 7) hlaw⟩

theorem orders8_of_subtracts {r : Acc} {op : Operand8} (h : Subtracts i r op false s) :
    ∃ t, exec i s = .next t ∧ OrdersBy 8 (s.acc r) (operand8 op s) rr t := by
  obtain ⟨t, he, hlaw, -⟩ := h
  exact ⟨t, he, ordersBy_of_subLaw (w := 7) hlaw⟩

theorem orders16_of_compares {r : Reg16} {op : Operand16} (h : Compares16 i r op s) :
    ∃ t, exec i s = .next t ∧ OrdersBy 16 (s.reg16 r) (operand16 op s) rr t := by
  obtain ⟨d, t, he, hlaw, -⟩ := h
  exact ⟨t, he, ordersBy_of_subLaw (w := 15) hlaw⟩

/-- Settles O57: the instructions follow the subtract laws (O34, O35), and those order the operands. -/
theorem branchesAfterCompareOrderTheOperands : Obligations.BranchesAfterCompareOrderTheOperands := by
  intro s op op' rr
  obtain ⟨-, -, -, hsuba, hsubb, -, hcmpa, hcmpb⟩ := subtractionsFollowTheSubtractLaw s op
  obtain ⟨-, hsubd, hcpd, hcpx, hcpy⟩ := wordArithmeticFollowsTheWordLaws s op'
  refine ⟨forall_mem_pair (orders8_of_compares hcmpa) (orders8_of_subtracts hsuba),
    forall_mem_pair (orders8_of_compares hcmpb) (orders8_of_subtracts hsubb),
    forall_mem_pair (orders16_of_compares hcpd) ?_, orders16_of_compares hcpx, orders16_of_compares hcpy⟩
  obtain ⟨t, he, hlaw, -⟩ := hsubd
  exact ⟨t, he, ordersBy_of_subLaw (w := 15) hlaw⟩

/-! ## Jumps, calls and returns -/

theorem calls_of_exec {target : Word} (he : exec i s = .next (callTo target s)) : Calls i target s := by
  have hmem : ∀ y, (callTo target s).memByte y = (pushWord s.pc s).memByte y := fun y => memByte_congr rfl rfl rfl y
  obtain ⟨hlo, hhi⟩ := stored_two (ne_sub_one s.sp) rfl rfl rfl fun y => (hmem y).trans (memByte_pushWord s.pc s y)
  exact (callTo_effect s target).jumps he rfl ⟨hlo, hhi, (callTo_sp s target).trans (sub_one_sub_one s.sp)⟩

theorem exec_rts (s : State) : exec .rts s = .next { pulledWord s with pc := pullWordValue s } := rfl

/-- Settles O58. -/
theorem jumpsCallsAndReturns : Obligations.JumpsCallsAndReturns := by
  intro s m rr
  refine ⟨?_, calls_of_exec rfl, ((Effect.refl s).setPc _).jumps rfl rfl trivial,
    ((pulledWord_effect s).setPc _).jumps (exec_rts s) (pullWordValue_eq s) (pulledWord_sp_two s),
    (Effect.refl s).runs rfl rfl trivial⟩
  rw [← branchTarget_eq]
  exact calls_of_exec rfl

/-- An effect without a store, after another. -/
theorem frame_trans {regs : List Reg} {flags : List Flag} {stored : List Word} (h : Frame regs flags stored s t)
    (h' : Frame regs flags [] t u) : Frame regs flags stored s u where
  registers q hq := (h'.registers q hq).trans (h.registers q hq)
  ccr f hf := (h'.ccr f hf).trans (h.ccr f hf)
  memory x hx := (h'.memory x List.not_mem_nil).trans (h.memory x hx)
  lastReset := h'.lastReset.trans h.lastReset
  lines := h'.lines.trans h.lines
  script := h'.script.trans h.script
  generation := h'.generation.trans h.generation
  cfg := h'.cfg.trans h.cfg

/-- A frame in which SP may change but does not. -/
theorem frame_of_sp_eq {flags : List Flag} {stored : List Word} (h : Frame [.sp] flags stored s t) (hsp : t.sp = s.sp) :
    Frame [] flags stored s t where
  registers q _ := by
    by_cases hq : q ∈ [Reg.sp]
    · rw [List.mem_singleton] at hq
      subst hq
      exact congrArg BitVec.toNat hsp
    · exact h.registers q hq
  ccr := h.ccr
  memory := h.memory
  lastReset := h.lastReset
  lines := h.lines
  script := h.script
  generation := h.generation
  cfg := h.cfg

/-- RTS after a call, whatever its target. -/
theorem rts_after_callTo (target : Word) (hroom : s.stackRoom 2 = true) :
    ∃ u, exec .rts (callTo target s) = .next u ∧ u.pc = s.pc ∧ Frame [] [] [s.sp, s.sp - 1] s u ∧ SameRun s u := by
  obtain ⟨-, -, hword⟩ := (pullUndoesPush s 0#8 s.pc).2 hroom
  have hcall := callTo_effect s target
  have hreturn := (pulledWord_effect (callTo target s)).setPc (pullWordValue (callTo target s))
  refine ⟨_, exec_rts _, ?_, frame_of_sp_eq (frame_trans hcall.frame hreturn.frame) ?_,
    hreturn.sameRun.1.trans hcall.sameRun.1, hreturn.sameRun.2.trans hcall.sameRun.2⟩
  · have hpeek : peek16 ((callTo target s).sp + 1) (callTo target s) =
        peek16 ((pushWord s.pc s).sp + 1) (pushWord s.pc s) :=
      peek16_congr (t := callTo target s) (s := pushWord s.pc s) rfl rfl rfl rfl rfl _
    exact (pullWordValue_eq _).trans (hpeek.trans hword)
  · simp only [pulledWord_sp_two, callTo_sp, sub_one_sub_one]
    exact BitVec.sub_add_cancel ..

/-- Settles O59. -/
theorem returnUndoesCall : Obligations.ReturnUndoesCall := fun _ _ rr hroom =>
  forall_mem_pair ⟨_, (rts_after_callTo (branchTarget rr _) hroom).imp fun _ h => ⟨rfl, h⟩⟩
    ⟨_, (rts_after_callTo _ hroom).imp fun _ h => ⟨rfl, h⟩⟩

/-! ## The condition code register -/

/-- A change of the mark of a CLI or TAP leaves what a frame speaks of. -/
theorem frame_setLateClear {regs : List Reg} {flags : List Flag} {stored : List Word} (h : Frame regs flags stored s t)
    (b : Bool) : Frame regs flags stored s { t with lateClear := b } where
  registers q hq := (reg_congr rfl rfl rfl rfl rfl q).trans (h.registers q hq)
  ccr := h.ccr
  memory x hx := (memByte_congr rfl rfl rfl x).trans (h.memory x hx)
  lastReset := h.lastReset
  lines := h.lines
  script := h.script
  generation := h.generation
  cfg := h.cfg

theorem writesFlag_of_exec {f : Flag} {b : Bool} (he : exec i s = .next { s with ccr := putFlag s.ccr f b }) :
    WritesFlag i f b s :=
  (ccr_effect s (putFlag_flagsKept _ f b)).runs he rfl ((getFlag_putFlag ..).trans (if_pos rfl))

/-- Settles O60. -/
theorem conditionCodeInstructionsWriteTheirBits : Obligations.ConditionCodeInstructionsWriteTheirBits := by
  intro s
  refine ⟨writesFlag_of_exec rfl, writesFlag_of_exec rfl, writesFlag_of_exec rfl, writesFlag_of_exec rfl,
    writesFlag_of_exec rfl, ?_, ?_⟩
  · exact ⟨_, exec_cli s, (getFlag_putFlag ..).trans (if_pos rfl), rfl,
      frame_setLateClear (ccr_effect s (putFlag_flagsKept _ .i false)).frame _, rfl, rfl, ⟨rfl, rfl⟩⟩
  · have hall : FlagsKept [.s, .x, .h, .i, .n, .z, .v, .c] s.ccr (loadCcr s.ccr s.a) := fun f hf =>
      absurd (by cases f <;> decide) hf
    have hflag := getFlag_loadCcr s.ccr s.a
    refine ⟨_, exec_tap s, hflag, rfl, frame_setLateClear (ccr_effect s hall).frame _, rfl, ?_, ⟨rfl, rfl⟩⟩
    simp [State.flag, hflag]

end Sys2Proof.Machine
